-- ==== Sys2Proof/Word.lean ====
section
/-! DEFINITION. The word types of the rfm69-rs radio-control block and their plainest arithmetic
(00_scope.md rules R7, R10, R11; 20_memory.md rule R58). -/

namespace Sys2Proof

/-- A byte is 8 bits (R10). -/
abbrev Byte := BitVec 8

/-- A transceiver register address is 7 bits, `ADDR_BITS` = 7 (R7, R27). -/
abbrev Addr := BitVec 7

/-- `clamp(v, lo, hi)`: `lo` if `v < lo`, `hi` if `v > hi`, else `v`, on mathematical integers (R11). -/
def clamp (v lo hi : Int) : Int := if v < lo then lo else if hi < v then hi else v

/-- The closed register enumeration: 0x00 to 0x4F and 0x58, 0x5A, 0x5C, 0x6F, 84 addresses (R27, R58, R82).
The argument is a plain number because a burst walks on from its base. -/
def isEnumerated (a : Nat) : Bool :=
  decide (a ≤ 0x4F) || a == 0x58 || a == 0x5A || a == 0x5C || a == 0x6F

/-- A delay request of the delay capability: `delay_us(n)` or `delay_ms(n)` (R6, R233). -/
inductive Delay where
  | us (n : Nat)
  | ms (n : Nat)
  deriving DecidableEq, Repr, Inhabited

end Sys2Proof
end

