-- ==== Sys2Proof/Syntax.lean ====
section
/-! DEFINITION. The instructions: the two bus instructions and the thirteen host commands, one constructor
per row of spec/opcode_table.json (30_encoding.md rules R80, R96, R97), and the two kinds of word they are
read from: a byte on the bus (R80), a command word on the command port (R95, R97). -/

namespace Sys2Proof

/-- The five operating modes (R21, R170). The tag, not the chip's 3-bit code. -/
inductive Mode where
  | sleep
  | standby
  | frequencySynthesis
  | transmit
  | receive
  deriving DecidableEq, Repr, Inhabited

/-- `SyncPolicy`: Off, AutoFill with a tolerance, ManualFill with a tolerance (R97, R140); the tolerance is an
unsigned 8-bit operand, clamped only when it is encoded. -/
inductive SyncPolicy where
  | off
  | autoFill (tol : BitVec 8)
  | manualFill (tol : BitVec 8)
  deriving DecidableEq, Repr, Inhabited

/-- One constructor per row of the opcode table. `rd` and `wr` are the bus instructions; each of the others is
a host command with the operands of R96. The number of data bytes of a bus transaction is no operand of the
opcode: it is fixed by the framing of the transaction (R80). -/
inductive Instr where
  /-- `RD`: the read opcode, first byte of a `BusR` transaction (R120). -/
  | rd (addr : Addr)
  /-- `WR`: the write opcode, first byte of a `BusW` transaction (R121). -/
  | wr (addr : Addr)
  /-- `init()` (R175). -/
  | init
  /-- `reset()` (R174). -/
  | reset
  /-- `set_mode(target)` (R173). -/
  | setMode (target : Mode)
  /-- `set_modem_config(p)`, `p` the index of a preset (R131). -/
  | setModemConfig (p : BitVec 8)
  /-- `set_sync_words(policy, words)` (R142). -/
  | setSyncWords (policy : SyncPolicy) (words : List Byte)
  /-- `set_tx_power(power)`, an `i8` in dBm (R151). -/
  | setTxPower (power : BitVec 8)
  /-- `set_frequency(freq_mhz)` (R161). -/
  | setFrequency (freqMhz : BitVec 16)
  /-- `send(payload)` (R191). -/
  | send (payload : List Byte)
  /-- `is_message_available()` (R192). -/
  | isMessageAvailable
  /-- `receive(capacity)`: "unsigned, 0 to 255 or more" (R97, R193). -/
  | receive (capacity : Nat)
  /-- `read_temperature()` (R194). -/
  | readTemperature
  /-- `rssi()` (R195). -/
  | rssi
  /-- `read_all_registers()` (R196). -/
  | readAllRegisters
  deriving DecidableEq, Repr, Inhabited

/-- The thirteen host commands are the instructions that are no bus instruction (R96). -/
def Instr.isCommand : Instr → Bool
  | .rd _ => false
  | .wr _ => false
  | .init => true
  | .reset => true
  | .setMode _ => true
  | .setModemConfig _ => true
  | .setSyncWords _ _ => true
  | .setTxPower _ => true
  | .setFrequency _ => true
  | .send _ => true
  | .isMessageAvailable => true
  | .receive _ => true
  | .readTemperature => true
  | .rssi => true
  | .readAllRegisters => true

/-- A word on the command port: the 4-bit command code and, beside it, the operand lanes with the widths of
R97. A command reads the lanes of its own operands and ignores the others. A list lane is a length of 0 to 255
and that many bytes; the width of the capacity lane is not given, so it is an unsigned number. -/
structure CmdWord where
  code : BitVec 4
  mode : BitVec 3 := 0
  preset : BitVec 8 := 0
  policyTag : BitVec 2 := 0
  tolerance : BitVec 8 := 0
  words : List Byte := []
  power : BitVec 8 := 0
  freqMhz : BitVec 16 := 0
  payload : List Byte := []
  capacity : Nat := 0
  deriving DecidableEq, Repr, Inhabited

/-- The two places an instruction is written in binary: the opcode byte on the bus (R80) and the command word on
the command port (R95). -/
inductive CodeWord where
  | bus (opcode : Byte)
  | port (w : CmdWord)
  deriving DecidableEq, Repr

end Sys2Proof
end

