-- ==== Sys2Proof/Config.lean ====
section
/-! DEFINITION. The configuration record `Cfg` (00_scope.md rule R8), what the environment answers beyond a given
script, and the configuration the reset state carries. A model of the spec takes `Cfg` as an argument: here it is
a field of the state that no step changes, so that a statement about every state is one about every `Cfg`
(log entry 1). Which records are configurations of this hardware (R9) is `Cfg.valid`, in Machine/CfgRules.lean. -/

namespace Sys2Proof

/-- One preset: "an immutable 8-byte parameter vector" `[v0, ..., v7]` (R89, R130). -/
structure Preset where
  v0 : Byte
  v1 : Byte
  v2 : Byte
  v3 : Byte
  v4 : Byte
  v5 : Byte
  v6 : Byte
  v7 : Byte
  deriving DecidableEq, Repr, Inhabited

/-- `MODE_CODE`: "a fixed 3-bit code" for each of the five modes (R8, R83). -/
structure ModeCodes where
  sleep : BitVec 3
  standby : BitVec 3
  frequencySynthesis : BitVec 3
  transmit : BitVec 3
  receive : BitVec 3
  deriving DecidableEq, Repr, Inhabited

/-- The configuration record `Cfg` of R8, field by field. -/
structure Cfg where
  /-- `A_FIFO` -/
  aFifo : Addr
  /-- `A_OPMODE` -/
  aOpMode : Addr
  /-- `A_DATAMODUL`, base of a burst of 5 -/
  aDataModul : Addr
  /-- `A_FRF`, base of a burst of 3 -/
  aFrf : Addr
  /-- `A_VERSION` -/
  aVersion : Addr
  /-- `A_PALEVEL` -/
  aPaLevel : Addr
  /-- `A_LNA` -/
  aLna : Addr
  /-- `A_RXBW`, base of a burst of 2 -/
  aRxBw : Addr
  /-- `A_RSSI` -/
  aRssi : Addr
  /-- `A_IRQ1`, holds the mode-ready bit -/
  aIrq1 : Addr
  /-- `A_IRQ2`, holds the packet-sent and payload-ready bits -/
  aIrq2 : Addr
  /-- `A_PREAMBLE`, base of a burst of 2 -/
  aPreamble : Addr
  /-- `A_SYNCCONFIG`, base of a burst of up to 9 -/
  aSyncConfig : Addr
  /-- `A_PACKETCONFIG1` -/
  aPacketConfig1 : Addr
  /-- `A_FIFOTHRESH` -/
  aFifoThresh : Addr
  /-- `A_TEMP1` -/
  aTemp1 : Addr
  /-- `A_TEMP2` -/
  aTemp2 : Addr
  /-- `A_TESTPA1` -/
  aTestPa1 : Addr
  /-- `A_TESTPA2` -/
  aTestPa2 : Addr
  /-- `A_TESTDAGC` -/
  aTestDagc : Addr
  /-- `MODE_CODE` -/
  modeCodes : ModeCodes
  /-- `M_MODE_READY` -/
  mModeReady : Byte
  /-- `M_PACKET_SENT` -/
  mPacketSent : Byte
  /-- `M_PAYLOAD_READY` -/
  mPayloadReady : Byte
  /-- `M_TEMP_START` -/
  mTempStart : Byte
  /-- `M_TEMP_RUNNING` -/
  mTempRunning : Byte
  /-- `PA0_ON` -/
  pa0On : Byte
  /-- `PA2_ON` -/
  pa2On : Byte
  /-- `VERSION_BYTE` -/
  versionByte : Byte
  /-- `TESTPA1_BOOST` -/
  testPa1Boost : Byte
  /-- `TESTPA2_BOOST` -/
  testPa2Boost : Byte
  /-- `TESTPA1_NORMAL` -/
  testPa1Normal : Byte
  /-- `TESTPA2_NORMAL` -/
  testPa2Normal : Byte
  /-- `F_STEP_NUMERATOR` -/
  fStepNumerator : Nat
  /-- `F_OSC_DENOMINATOR` -/
  fOscDenominator : Nat
  /-- `PRESETS` and `PRESET_TABLE`, the preset ROM: the preset of index `p` is the entry at `p` (R37, R97) -/
  presets : List Preset
  /-- `INIT_FIFO_THRESH` -/
  initFifoThresh : Byte
  /-- `INIT_DAGC` -/
  initDagc : Byte
  /-- `INIT_LNA` -/
  initLna : Byte
  /-- `INIT_SYNC_POLICY` -/
  initSyncPolicy : SyncPolicy
  /-- `INIT_SYNC_WORDS` -/
  initSyncWords : List Byte
  /-- `INIT_PRESET`, an index into `PRESETS` -/
  initPreset : BitVec 8
  /-- `INIT_PREAMBLE` -/
  initPreamble : BitVec 16
  /-- `INIT_FREQ_MHZ` -/
  initFreqMhz : BitVec 16
  /-- `POLL_DELAY` -/
  pollDelay : Delay
  /-- `HIGH_POWER_STRAP` -/
  highPowerStrap : Bool
  /-- `ZERO_LEN_BURST_ISSUED` -/
  zeroLenBurstIssued : Bool
  deriving DecidableEq, Repr, Inhabited

/-- What the transport or the reset line answers to one event: `ok` with the data bytes of a read (none looked at
for a write or a line drive), or `fail` (R5, R6). -/
inductive Answer where
  | ok (bytes : List Byte)
  | fail
  deriving DecidableEq, Repr, Inhabited

namespace Config

/-- FREE VALUE (log entry 2). The answer to the event of this number, where the state's script of answers has
ended: unconstrained (R59). -/
opaque oracle : Nat → Answer

/-- FREE VALUE (log entry 2). Data byte `i` of the read answered with this number, where the script gives fewer
bytes than the read takes: unconstrained (R59). -/
opaque oracleByte : Nat → Nat → Byte

/-- OPEN in the spec, no body (log entry 3): the preset at index 0. -/
opaque firstPreset : Preset

/-- OPEN in the spec, no body (log entry 3): the further presets, cut to the 8-bit index. -/
opaque otherPresets : List Preset

/-- OPEN in the spec, no body (log entry 3): `INIT_FIFO_THRESH`. -/
opaque initFifoThresh : Byte

/-- OPEN in the spec, no body (log entry 3): `INIT_DAGC`. -/
opaque initDagc : Byte

/-- OPEN in the spec, no body (log entry 3): `INIT_LNA`. -/
opaque initLna : Byte

/-- OPEN in the spec, no body (log entry 3): `INIT_SYNC_POLICY`. -/
opaque initSyncPolicy : SyncPolicy

/-- OPEN in the spec, no body (log entry 3): the first of `INIT_SYNC_WORDS`. -/
opaque initSyncFirst : Byte

/-- OPEN in the spec, no body (log entry 3): the other `INIT_SYNC_WORDS`, cut to seven. -/
opaque initSyncRest : List Byte

/-- OPEN in the spec, no body (log entry 3): which preset `INIT_PRESET` is, taken modulo their number. -/
opaque initPresetChoice : Nat

/-- OPEN in the spec, no body (log entry 3): `INIT_PREAMBLE`. -/
opaque initPreamble : BitVec 16

/-- OPEN in the spec, no body (log entry 3): `INIT_FREQ_MHZ`, taken modulo 1024 so that its word fits. -/
opaque initFreqChoice : Nat

/-- OPEN in the spec, no body (log entry 3): `POLL_DELAY`. -/
opaque pollDelay : Delay

/-- OPEN in the spec, no body (log entry 3): `HIGH_POWER_STRAP`. -/
opaque highPowerStrap : Bool

/-- The preset ROM of the reset configuration: at least one preset, at most 256 (R9 item 8, R97). -/
def presets : List Preset := firstPreset :: otherPresets.take 255

/-- The configuration the reset state carries (PRESUMED, unsafe, log entry 4: the "default" column of R8, which the spec
marks as general knowledge; log entry 3 for the OPEN fields). No statement rests on it: `Cfg` is a field of State. -/
def block : Cfg where
  aFifo := 0x00
  aOpMode := 0x01
  aDataModul := 0x02
  aFrf := 0x07
  aVersion := 0x10
  aPaLevel := 0x11
  aLna := 0x18
  aRxBw := 0x19
  aRssi := 0x24
  aIrq1 := 0x27
  aIrq2 := 0x28
  aPreamble := 0x2C
  aSyncConfig := 0x2E
  aPacketConfig1 := 0x37
  aFifoThresh := 0x3C
  aTemp1 := 0x4E
  aTemp2 := 0x4F
  aTestPa1 := 0x5A
  aTestPa2 := 0x5C
  aTestDagc := 0x6F
  modeCodes := { sleep := 0, standby := 1, frequencySynthesis := 2, transmit := 3, receive := 4 }
  mModeReady := 0x80
  mPacketSent := 0x08
  mPayloadReady := 0x04
  mTempStart := 0x08
  mTempRunning := 0x04
  pa0On := 0x80
  pa2On := 0x20
  versionByte := 0x24
  testPa1Boost := 0x5D
  testPa2Boost := 0x7C
  testPa1Normal := 0x55
  testPa2Normal := 0x70
  fStepNumerator := 524288
  fOscDenominator := 32
  presets := presets
  initFifoThresh := initFifoThresh
  initDagc := initDagc
  initLna := initLna
  initSyncPolicy := initSyncPolicy
  initSyncWords := initSyncFirst :: initSyncRest.take 7
  initPreset := BitVec.ofNat 8 (initPresetChoice % presets.length)
  initPreamble := initPreamble
  initFreqMhz := BitVec.ofNat 16 (initFreqChoice % 1024)
  pollDelay := pollDelay
  highPowerStrap := highPowerStrap
  zeroLenBurstIssued := true

end Config

end Sys2Proof
end

