-- ==== Sys2Proof/WellFormed.lean ====
section
/-! DEFINITION. Which instructions are well formed: a bus instruction names a register of the closed
enumeration (30_encoding.md rule R82), a list operand fits its lane (R97). Everything else of R99 is illegal as a
WORD and has no term here: a mode, a policy is a closed type. Whether a preset index is in `Cfg.PRESETS` depends
on the configuration and is checked when the command is presented. -/

namespace Sys2Proof

/-- "a length 0 to 255 and that many bytes" (R97). -/
def laneFits (l : List Byte) : Bool := decide (l.length ≤ 255)

/-- A well-formed instruction. Sync-word lists of length 0 or above 8 and payloads above 60 bytes are well formed:
they are "legal to present" and answered by an error (R99). -/
def Instr.wellFormed : Instr → Bool
  | .rd a => isEnumerated a.toNat
  | .wr a => isEnumerated a.toNat
  | .init => true
  | .reset => true
  | .setMode _ => true
  | .setModemConfig _ => true
  | .setSyncWords _ words => laneFits words
  | .setTxPower _ => true
  | .setFrequency _ => true
  | .send payload => laneFits payload
  | .isMessageAvailable => true
  | .receive _ => true
  | .readTemperature => true
  | .rssi => true
  | .readAllRegisters => true

end Sys2Proof
end

