-- ==== Sys2Proof/Decode.lean ====
section
/-! DEFINITION. The decoder, total on every word and rejecting by name, and the encoder, both from
30_encoding.md (R80, R82, R95 to R97, R99) and spec/opcode_table.json. -/

namespace Sys2Proof

/-- Why a word on the command port is no command (R99): "refused at the port: no step, no result". -/
inductive DecodeError where
  /-- Command codes 0xD, 0xE, 0xF are reserved (R96, R99). -/
  | reservedCommandCode
  /-- Mode operand tags 5, 6, 7 (R99). -/
  | illegalModeTag
  /-- SyncPolicy tag 3 (R99). -/
  | illegalPolicyTag
  /-- A list lane of more than 255 bytes has no length field that could announce it (R97). -/
  | listLaneTooLong
  deriving DecidableEq, Repr

/-- The read opcode `RDOP(addr) = addr & 0x7F`, total on `u8` (R120). -/
def rdOp (addr : Byte) : Byte := addr &&& 0x7F#8

/-- The write opcode `WROP(addr) = addr | 0x80` (R121). -/
def wrOp (addr : Byte) : Byte := addr ||| 0x80#8

/-- An address as the byte the opcode functions take. -/
def addrByte (a : Addr) : Byte := a.setWidth 8

/-- The bus opcode: bit 7 is the direction, bits 6:0 the address; total on all 256 values (R80, R122 d). -/
def decodeBus (o : Byte) : Instr :=
  if o.getLsbD 7 then .wr (o.setWidth 7) else .rd (o.setWidth 7)

/-- The mode tag on the command port: Sleep 0 to Receive 4 (R97). -/
def decodeMode (tag : BitVec 3) : Except DecodeError Mode :=
  match tag.toNat with
  | 0 => .ok .sleep
  | 1 => .ok .standby
  | 2 => .ok .frequencySynthesis
  | 3 => .ok .transmit
  | 4 => .ok .receive
  | _ => .error .illegalModeTag

/-- The policy tag: Off 0, AutoFill 1, ManualFill 2, with the tolerance lane used by tags 1 and 2 (R97). -/
def decodePolicy (tag : BitVec 2) (tol : BitVec 8) : Except DecodeError SyncPolicy :=
  match tag.toNat with
  | 0 => .ok .off
  | 1 => .ok (.autoFill tol)
  | 2 => .ok (.manualFill tol)
  | _ => .error .illegalPolicyTag

/-- A list lane carries at most 255 bytes (R97). -/
def decodeLane (l : List Byte) : Except DecodeError (List Byte) :=
  if laneFits l then .ok l else .error .listLaneTooLong

/-- The command word: the code of R96 selects the command, its operands are read from their lanes, and no other
lane is looked at (DEDUCED, safe: log entry 12). -/
def decodeCmd (w : CmdWord) : Except DecodeError Instr :=
  match w.code.toNat with
  | 0x0 => .ok .init
  | 0x1 => .ok .reset
  | 0x2 => (decodeMode w.mode).map .setMode
  | 0x3 => .ok (.setModemConfig w.preset)
  | 0x4 =>
    match decodePolicy w.policyTag w.tolerance, decodeLane w.words with
    | .ok policy, .ok words => .ok (.setSyncWords policy words)
    | .error e, _ => .error e
    | .ok _, .error e => .error e
  | 0x5 => .ok (.setTxPower w.power)
  | 0x6 => .ok (.setFrequency w.freqMhz)
  | 0x7 => (decodeLane w.payload).map .send
  | 0x8 => .ok .isMessageAvailable
  | 0x9 => .ok (.receive w.capacity)
  | 0xA => .ok .readTemperature
  | 0xB => .ok .rssi
  | 0xC => .ok .readAllRegisters
  | _ => .error .reservedCommandCode

/-- Decoding a word where it stands: on the bus or on the command port. -/
def decode : CodeWord → Except DecodeError Instr
  | .bus o => .ok (decodeBus o)
  | .port w => decodeCmd w

/-- The mode tag of R97. -/
def encodeMode : Mode → BitVec 3
  | .sleep => 0
  | .standby => 1
  | .frequencySynthesis => 2
  | .transmit => 3
  | .receive => 4

/-- The encoder: `RD` and `WR` by their opcode functions (R120, R121), a command by its code (R96) with its
operands on their lanes (R97) and every other lane zero. -/
def encode : Instr → CodeWord
  | .rd a => .bus (rdOp (addrByte a))
  | .wr a => .bus (wrOp (addrByte a))
  | .init => .port { code := 0x0 }
  | .reset => .port { code := 0x1 }
  | .setMode target => .port { code := 0x2, mode := encodeMode target }
  | .setModemConfig p => .port { code := 0x3, preset := p }
  | .setSyncWords .off words => .port { code := 0x4, policyTag := 0, words := words }
  | .setSyncWords (.autoFill tol) words =>
      .port { code := 0x4, policyTag := 1, tolerance := tol, words := words }
  | .setSyncWords (.manualFill tol) words =>
      .port { code := 0x4, policyTag := 2, tolerance := tol, words := words }
  | .setTxPower power => .port { code := 0x5, power := power }
  | .setFrequency f => .port { code := 0x6, freqMhz := f }
  | .send payload => .port { code := 0x7, payload := payload }
  | .isMessageAvailable => .port { code := 0x8 }
  | .receive capacity => .port { code := 0x9, capacity := capacity }
  | .readTemperature => .port { code := 0xA }
  | .rssi => .port { code := 0xB }
  | .readAllRegisters => .port { code := 0xC }

/-- Where a word numbered as spec/opcode_table.json numbers it stands (log entry 5, DESIGN CHOICE). The table has
two encoding spaces whose numbers overlap: 4-bit command codes and 8-bit bus opcodes. A number of at most 4 bits
is a command code. In a whole byte, bit 7 set is `WR`; a byte that is one of the thirteen assigned command codes
is read as that code; every other byte is `RD`. Operand lanes are zero. -/
def tableWord (nbits w : Nat) : CodeWord :=
  if nbits ≤ 4 ∨ w ≤ 0xC then .port { code := BitVec.ofNat 4 w } else .bus (BitVec.ofNat 8 w)

/-- The instruction the decoder reads from a word of the opcode table. -/
def decodeTableWord (nbits w : Nat) : Option Instr := (decode (tableWord nbits w)).toOption

end Sys2Proof
end

