-- ==== Sys2Proof/Machine/Memory.lean ====
section
/-! DEFINITION. The record of the transceiver registers as the block has written them: a list of address and byte
pairs, addresses strictly rising, an unlisted address holding nothing known (20_memory.md rules R50, R53, R57;
41_register_opcodes.md rule R123). It is the model's own field, not the block's state and not the chip's: no read
is answered from it (R59) and no rule looks at it (log entry 6). -/

namespace Sys2Proof.Machine

/-- Address and byte pairs, the canonical form being `Memory.wf`. -/
abbrev Memory := List Host.Cell

namespace Memory

/-- The canonical form: addresses strictly rising. An unlisted address reads as nothing known, which no entry
equals, so equal records are equal lists. -/
abbrev wf (m : Memory) : Prop := m.Pairwise (fun x y => x.1 < y.1)

/-- The byte recorded at an address; none where nothing is known of it. -/
def read (a : Nat) : Memory → Option Byte
  | [] => none
  | (x, b) :: m => if a = x then some b else read a m

/-- Record one byte, keeping the order. -/
def write (a : Nat) (b : Byte) : Memory → Memory
  | [] => [(a, b)]
  | (x, c) :: m =>
    if a < x then (a, b) :: (x, c) :: m
    else if a = x then (a, b) :: m
    else (x, c) :: write a b m

/-- An acknowledged burst: data byte `i` belongs to register `base + i` (R53, R123). -/
def storeBurst (base : Nat) : List Byte → Memory → Memory
  | [], m => m
  | b :: bs, m => storeBurst (base + 1) bs (write base b m)

/-- A burst answered `fail`: how many of its `n` bytes reached the chip is not known (R51), so nothing is known
of the registers it covers. -/
def forgetBurst (base n : Nat) (m : Memory) : Memory :=
  m.filter (fun c => decide (c.1 < base) || decide (base + n ≤ c.1))

end Memory

end Sys2Proof.Machine
end

