-- ==== Sys2Proof/Machine/State.lean ====
section
/-! DEFINITION. The state: the block's registers `x[MODE]`, `x[PWR]`, `x[HP]` and the sequencer position
(10_state.md rules R20 to R25), the level last driven on the reset line (R39), and the model's own fields: the
configuration, the command port, the environment's answers, the events so far, the record of register writes.
The faults and refusals a step can stop with. -/

namespace Sys2Proof.Machine

/-- The closed list of error kinds (R220). An error ends a command; it is no fault of the model (R228). -/
inductive ErrKind where
  | resetError
  | spiWriteError
  | spiReadError
  | configurationError
  | messageTooLarge
  | invalidMode
  deriving DecidableEq, Repr

/-- The value lane of an `Ok` result, by the value types of R96. -/
inductive Value where
  | unit
  /-- One bit, of `is_message_available`. -/
  | flag (b : Bool)
  /-- Count and data of `receive` in one list. -/
  | bytes (data : List Byte)
  /-- Signed integer degrees Celsius. -/
  | celsius (t : Int)
  /-- RSSI as the number of half decibels. -/
  | halfDecibels (n : Byte)
  /-- The (address, value) pairs of `read_all_registers`. -/
  | registers (l : List (Addr × Byte))
  deriving DecidableEq, Repr

/-- `Res(r)`: `Ok(value)` or `Err(kind)` (R12). -/
inductive Result where
  | ok (v : Value)
  | err (e : ErrKind)
  deriving DecidableEq, Repr

/-- The event alphabet of R6, each event with its answer: `acknowledged` is the `ok` or `fail` of a write or a
line drive, the bytes of a read are none on `fail`. -/
inductive Event where
  | cmd (c : Instr)
  | res (r : Result)
  | busW (addr : Addr) (bytes : List Byte) (acknowledged : Bool)
  | busR (addr : Addr) (n : Nat) (bytes : Option (List Byte))
  | rstHigh (acknowledged : Bool)
  | rstLow (acknowledged : Bool)
  | delay (d : Delay)
  deriving DecidableEq, Repr

/-! Sequencer positions: the labels of the pseudocode of files 42 to 47, each with the local values its rule still
needs there (R25). A position is the point just before an event. -/

/-- Labels of `WaitFlag`: the read at `L`, and the delay after a read that did not satisfy the test (R172). -/
inductive WaitPos where
  | poll
  | sleep
  deriving DecidableEq, Repr

/-- Labels of `set_mode` (R173); the byte just read is the local `old`. -/
inductive SetModePos where
  | testPa1
  | testPa2
  | readMode
  | writeMode (old : Byte)
  | ready (w : WaitPos)
  deriving DecidableEq, Repr

/-- Labels of `reset` (R174). -/
inductive ResetPos where
  | high
  | hold
  | low
  | settle
  deriving DecidableEq, Repr

/-- Labels of `set_modem_config`, its three writes in order (R131). -/
inductive ModemPos where
  | modulation
  | bandwidth
  | packet
  deriving DecidableEq, Repr

/-- Labels of `init`, by its twelve steps (R175). -/
inductive InitPos where
  | pulse (p : ResetPos)
  | version
  | fifoThresh
  | dagc
  | lna
  | syncWords
  | testPa1
  | testPa2
  | modem (p : ModemPos)
  | preamble
  | txPower
  | frequency
  | toStandby (p : SetModePos)
  deriving DecidableEq, Repr

/-- Labels of `send` (R191). -/
inductive SendPos where
  | fifo
  | toTransmit (p : SetModePos)
  | sent (w : WaitPos)
  | toStandby (p : SetModePos)
  deriving DecidableEq, Repr

/-- Labels of `receive`; the length byte just read is the local `L` (R193). -/
inductive ReceivePos where
  | length
  | underflow
  | header (len : Byte)
  | payload (len : Byte)
  deriving DecidableEq, Repr

/-- Labels of `read_temperature` (R194). -/
inductive TempPos where
  | start
  | running (w : WaitPos)
  | raw
  deriving DecidableEq, Repr

/-- Labels of `read_all_registers` with the bytes read so far (R196). -/
inductive DumpPos where
  | core
  | aux58 (core : List Byte)
  | aux5A (core : List Byte) (a : Byte)
  | aux5C (core : List Byte) (a b : Byte)
  | aux6F (core : List Byte) (a b c : Byte)
  deriving DecidableEq, Repr

/-- A position inside a command: the command with its operands and the label (R25). `finish c r` is the
`return` or `raise` of command `c`: the event to come is `Res(r)`. -/
inductive Pos where
  | init (p : InitPos)
  | reset (p : ResetPos)
  | setMode (target : Mode) (p : SetModePos)
  | setModemConfig (i : BitVec 8) (p : ModemPos)
  | setSyncWords (policy : SyncPolicy) (words : List Byte)
  | setTxPower (power : BitVec 8)
  | setFrequency (freqMhz : BitVec 16)
  | send (payload : List Byte) (p : SendPos)
  | isMessageAvailable
  | receive (capacity : Nat) (p : ReceivePos)
  | readTemperature (p : TempPos)
  | rssi
  | readAllRegisters (p : DumpPos)
  | finish (c : Instr) (r : Result)
  deriving DecidableEq, Repr

/-- The command a position belongs to. -/
def Pos.command : Pos → Instr
  | .init _ => .init
  | .reset _ => .reset
  | .setMode target _ => .setMode target
  | .setModemConfig i _ => .setModemConfig i
  | .setSyncWords policy words => .setSyncWords policy words
  | .setTxPower power => .setTxPower power
  | .setFrequency f => .setFrequency f
  | .send payload _ => .send payload
  | .isMessageAvailable => .isMessageAvailable
  | .receive capacity _ => .receive capacity
  | .readTemperature _ => .readTemperature
  | .rssi => .rssi
  | .readAllRegisters _ => .readAllRegisters
  | .finish c _ => c

/-- The sequencer position `pc`: `Idle` or inside a command (R25). -/
inductive Pc where
  | idle
  | running (p : Pos)
  deriving DecidableEq, Repr

/-- The level of the reset line as far as the block knows: nothing driven since block reset, or the level of the
last drive that was acknowledged (R39 "unspecified until the first `RstHigh` or `RstLow`"). That nothing driven is a
value of its own is a DESIGN CHOICE, unsafe (log entry 13). -/
inductive LineLevel where
  | undriven
  | low
  | high
  deriving DecidableEq, Repr

/-- The state. `mode`, `pwr`, `hp`, `pc` are the tuple `S` of R20. `line` is the reset-line level of R39. `cfg` is
the configuration (R8; the preset ROM of R37 is in it), which no step changes. `port` is what the host has still to
present on the command port, first command first (R95). `answers` is what the environment will answer, first answer
first, and `drawn` counts the answers taken, which numbers the free answers after the script (R59). `trace` is the
sequence of events so far, oldest first (R6). `chip` is the record of register writes (R123). All but the first five
are the model's own (DESIGN CHOICE, safe: log entries 1, 2, 6, 7). -/
structure State where
  mode : Mode
  pwr : BitVec 8
  hp : Bool
  pc : Pc
  line : LineLevel
  cfg : Cfg
  port : List CmdWord
  answers : List Answer
  drawn : Nat
  trace : List Event
  chip : Memory
  deriving DecidableEq, Repr

/-- Faults: the run ends in a state that supports no claim (R228). -/
inductive Fault where
  /-- Raised by `receive` when the length byte is below 4 and not above the capacity: "the model faults
  (`LengthUnderflow`, a model fault, not one of the six error kinds)" (R193, 93 U2). Safe: the run stops. -/
  | lengthUnderflow
  deriving DecidableEq, Repr

/-- Refusals: the model gives an input no meaning (R228). Each is safe: the run stops and supports no claim. -/
inductive Refusal where
  /-- Raised by exec's arm of an instruction that has no meaning yet. Safe. -/
  | notModelled (mnemonic : String)
  /-- Raised by step: the word on the command port is no command (R99). Safe. -/
  | illegalCommandWord (e : DecodeError)
  /-- Raised by set_modem_config and by init: the selector is outside `Cfg.PRESETS` (R99, 93 U15). Safe. -/
  | presetNotInTable
  /-- Raised by set_frequency and by init: the synthesizer word does not fit 24 bits (R160, 93 U3). Safe. -/
  | frequencyWordTooLarge
  /-- Raised by each command while another one is running (R235, 93 U16). Safe. -/
  | commandWhileBusy
  /-- Raised by RD and WR where the running command's next event is no such transaction at that address:
  "Between two commands nothing is emitted" (R60). Safe. -/
  | noSuchTransaction
  /-- Raised by any bus transaction that would reach an address outside the enumeration: "a model's emit
  function refuses it" (R99). Only a `Cfg` that breaks R9 gets here. Safe. -/
  | addressNotEnumerated
  deriving DecidableEq, Repr

/-- Block reset with a given configuration (R260, R39): Standby, 13 dBm, the strap, `Idle`, nothing in flight, no
event emitted. The host has presented nothing and no answer is scripted. -/
def State.blockReset (cfg : Cfg) : State where
  mode := .standby
  pwr := 13
  hp := cfg.highPowerStrap
  pc := .idle
  line := .undriven
  cfg := cfg
  port := []
  answers := []
  drawn := 0
  trace := []
  chip := []

/-- The machine right after block reset. -/
def State.reset : State := State.blockReset Config.block

end Sys2Proof.Machine
end

