-- ==== Sys2Proof/Machine/Operands.lean ====
section
/-! DEFINITION. The five combinational calculators and the operand forms: preset lookup, sync-configuration byte,
PA control byte, synthesizer word, mode byte, frame, and the two measured values (files 42 to 47 and 30_encoding.md
rules R83 to R102). All pure. -/

namespace Sys2Proof.Machine

/-- `MODE_CODE(m)` (R83). -/
def modeCode (cfg : Cfg) : Mode → BitVec 3
  | .sleep => cfg.modeCodes.sleep
  | .standby => cfg.modeCodes.standby
  | .frequencySynthesis => cfg.modeCodes.frequencySynthesis
  | .transmit => cfg.modeCodes.transmit
  | .receive => cfg.modeCodes.receive

/-- The byte `set_mode` writes: `(old & 0xE3) | (MODE_CODE(target) << 2)` (R84). -/
def modeByte (old : Byte) (code : BitVec 3) : Byte :=
  (old &&& 0xE3#8) ||| (code.setWidth 8 <<< 2)

/-- The 8 bytes of a preset in table order (R89, R130). -/
def presetBytes (v : Preset) : List Byte := [v.v0, v.v1, v.v2, v.v3, v.v4, v.v5, v.v6, v.v7]

/-- `PRESET(p)`: the lookup by index, none for a selector outside `PRESETS` (R130, R99). -/
def presetAt (cfg : Cfg) (p : BitVec 8) : Option Preset := cfg.presets[p.toNat]?

/-- `SYNC_ON` and `SYNC_MANUAL_FILL` (R7) over the two fields of R86. -/
def syncFields (top : Byte) (tol : BitVec 8) (wordCount : Nat) : Byte :=
  top ||| (BitVec.ofInt 8 (clamp wordCount 1 8 - 1) <<< 3) ||| BitVec.ofInt 8 (clamp tol.toNat 0 7)

/-- `encode(policy, word_count)`, the sync-configuration byte (R140). -/
def syncByte (policy : SyncPolicy) (wordCount : Nat) : Byte :=
  match policy with
  | .off => 0x00#8
  | .autoFill tol => syncFields 0x80#8 tol wordCount
  | .manualFill tol => syncFields (0x80#8 ||| 0x40#8) tol wordCount

/-- The count check of `set_sync_words`: an illegal list length (R142). -/
def badWordCount (words : List Byte) : Bool := words.length == 0 || decide (8 < words.length)

/-- `PA1_ON` (R7). -/
def pa1On : Byte := 0x40#8

/-- The output-power offset `(p + k) & 0x1F` on signed integers (R85, R102). -/
def paOffset (p k : Int) : Byte := BitVec.ofInt 8 (p + k) &&& 0x1F#8

/-- `PA_BYTE(power, high_power)` (R150). -/
def paByte (cfg : Cfg) (power : Int) (highPower : Bool) : Byte :=
  if highPower then
    let p := clamp power (-2) 20
    if p ≤ 13 then pa1On ||| paOffset p 18
    else if 18 ≤ p then pa1On ||| cfg.pa2On ||| paOffset p 11
    else pa1On ||| cfg.pa2On ||| paOffset p 14
  else
    cfg.pa0On ||| paOffset (clamp power (-18) 13) 18

/-- `sext(x[PWR])`: the cached power as a mathematical integer (R22). -/
def dbm (power : BitVec 8) : Int := power.toInt

/-- The default transmit power of `init` step 10 (R175). -/
def defaultPower : BitVec 8 := 13

/-- `x[PWR] >= 18`, the test of `set_mode` (R173); it does not look at `x[HP]` (90_conflicts.md C4). -/
def wantsBoost (power : BitVec 8) : Bool := decide (18 ≤ dbm power)

/-- The synthesizer word on unbounded integers, truncating (R160). -/
def frfWord (cfg : Cfg) (freqMhz : BitVec 16) : Nat :=
  freqMhz.toNat * cfg.fStepNumerator / cfg.fOscDenominator

/-- A 24-bit word split high byte first (R88). -/
def splitWord (word : BitVec 24) : List Byte :=
  [word.extractLsb' 16 8, word.extractLsb' 8 8, word.extractLsb' 0 8]

/-- `FRF_BYTES(freq_mhz)`; none where the word does not fit 24 bits, to which the spec gives no meaning (R160). -/
def frfBytes (cfg : Cfg) (freqMhz : BitVec 16) : Option (List Byte) :=
  if frfWord cfg freqMhz < 2 ^ 24 then some (splitWord (BitVec.ofNat 24 (frfWord cfg freqMhz))) else none

/-- The preamble length, most significant byte first (R90). -/
def preambleBytes (n : BitVec 16) : List Byte := [n.extractLsb' 8 8, n.extractLsb' 0 8]

/-- `HEADER`, the fixed 4-byte header (R7, R94). -/
def frameHeader : List Byte := [0xFF#8, 0xFF#8, 0x00#8, 0x00#8]

/-- `MAX_PAYLOAD` (R7). -/
def maxPayload : Nat := 60

/-- `FRAME(payload)`: length byte, header, payload (R190). -/
def frame (payload : List Byte) : List Byte :=
  BitVec.ofNat 8 (payload.length + 4) :: (frameHeader ++ payload)

/-- The number of payload bytes a length byte of at least 4 announces (R102, R193). -/
def payloadCount (len : Byte) : Nat := len.toNat - 4

/-- `166 - zext(raw)` degrees Celsius (R194). -/
def celsiusOf (raw : Byte) : Int := 166 - (raw.toNat : Int)

/-- The addresses of `read_all_registers` in order: 0x00 to 0x4F, then the four auxiliary ones (R196). -/
def dumpAddresses : List Addr := (List.range 80).map (BitVec.ofNat 7) ++ [0x58, 0x5A, 0x5C, 0x6F]

/-- The (address, value) pairs of `read_all_registers` (R196). -/
def dumpPairs (core : List Byte) (a b c d : Byte) : List (Addr × Byte) :=
  dumpAddresses.zip (core ++ [a, b, c, d])

end Sys2Proof.Machine
end

