-- ==== Sys2Proof/Machine/CfgRules.lean ====
section
/-! DEFINITION. Which records are configurations of this hardware: the constraints of 00_scope.md rule R9, item by
item. "A `Cfg` that breaks one is not a configuration of this hardware." -/

namespace Sys2Proof

open Machine

/-- The base addresses that are not the base of a longer burst. -/
def Cfg.singleAddresses (c : Cfg) : List Addr :=
  [c.aFifo, c.aOpMode, c.aVersion, c.aPaLevel, c.aLna, c.aRssi, c.aIrq1, c.aIrq2, c.aPacketConfig1,
   c.aFifoThresh, c.aTemp1, c.aTemp2, c.aTestPa1, c.aTestPa2, c.aTestDagc]

/-- Item 1: every address field is in the enumeration (for the burst bases item 2 says more). -/
def Cfg.addressesEnumerated (c : Cfg) : Bool :=
  c.singleAddresses.all (fun a => isEnumerated a.toNat)

/-- Item 2: each burst stays inside the contiguous core bank. -/
def Cfg.burstsInCoreBank (c : Cfg) : Bool :=
  decide (c.aDataModul.toNat + 4 ≤ 0x4F) && decide (c.aFrf.toNat + 2 ≤ 0x4F) &&
  decide (c.aRxBw.toNat + 1 ≤ 0x4F) && decide (c.aPreamble.toNat + 1 ≤ 0x4F) &&
  decide (c.aSyncConfig.toNat + 8 ≤ 0x4F)

/-- Item 3: the two test-PA registers are two different addresses. -/
def Cfg.testPaDistinct (c : Cfg) : Bool := c.aTestPa1 != c.aTestPa2

/-- Item 4: `MODE_CODE` is injective. -/
def Cfg.modeCodesDistinct (c : Cfg) : Bool :=
  decide [c.modeCodes.sleep, c.modeCodes.standby, c.modeCodes.frequencySynthesis, c.modeCodes.transmit,
    c.modeCodes.receive].Nodup

/-- Item 5: `PA0_ON` and `PA2_ON` are bits 7 and 5 in one order or the other. -/
def Cfg.paBitsPlaced (c : Cfg) : Bool :=
  (c.pa0On == 0x80#8 && c.pa2On == 0x20#8) || (c.pa0On == 0x20#8 && c.pa2On == 0x80#8)

/-- A byte with exactly one bit set. -/
def isSingleBit (m : Byte) : Bool :=
  m == 0x01#8 || m == 0x02#8 || m == 0x04#8 || m == 0x08#8 || m == 0x10#8 || m == 0x20#8 || m == 0x40#8 || m == 0x80#8

/-- Item 6: every status mask is a single bit; start and running differ. -/
def Cfg.statusMasksSingle (c : Cfg) : Bool :=
  isSingleBit c.mModeReady && isSingleBit c.mPacketSent && isSingleBit c.mPayloadReady &&
  isSingleBit c.mTempStart && isSingleBit c.mTempRunning && c.mTempStart != c.mTempRunning

/-- Item 7: the synthesizer constants are positive and meet the document's vector at 915 MHz. -/
def Cfg.synthesizerConstants (c : Cfg) : Bool :=
  decide (0 < c.fStepNumerator) && decide (0 < c.fOscDenominator) &&
  915 * c.fStepNumerator / c.fOscDenominator == 0xE4C000

/-- Item 8: `PRESETS` is not empty and indexed by 8 bits (R97); `INIT_PRESET` is in it. That a preset has exactly 8
bytes is in the type. -/
def Cfg.presetsUsable (c : Cfg) : Bool :=
  decide (c.presets.length ≤ 256) && decide (c.initPreset.toNat < c.presets.length)

/-- Item 9: the default sync words are 1 to 8 bytes. -/
def Cfg.initSyncWordsUsable (c : Cfg) : Bool := !badWordCount c.initSyncWords

/-- R175 corner case e: the default frequency is in the domain of R160; "a model checks this when it builds
`Cfg`". -/
def Cfg.initFreqUsable (c : Cfg) : Bool := decide (frfWord c c.initFreqMhz < 2 ^ 24)

/-- The configurations of this hardware; two items beyond R9 are DEDUCED, safe (log entry 16). -/
def Cfg.valid (c : Cfg) : Bool :=
  c.addressesEnumerated && c.burstsInCoreBank && c.testPaDistinct && c.modeCodesDistinct &&
  c.paBitsPlaced && c.statusMasksSingle && c.synthesizerConstants && c.presetsUsable &&
  c.initSyncWordsUsable && c.initFreqUsable

end Sys2Proof
end

