-- ==== Sys2Proof/Machine/Flags.lean ====
section
/-! DEFINITION. The status bits. The block has no flags of its own (10_state.md rule R26): what stands for them are
the bits of the transceiver's status bytes it has just read (R31, R32, R91), and the test of a wait (R172). -/

namespace Sys2Proof.Machine

/-- "only the one bit under the mask is used (`(s & mask) != 0` means set)" (R91). -/
def statusBit (s mask : Byte) : Bool := (s &&& mask) != 0#8

/-- The test of `WaitFlag`: the bit is in the wanted state (R172). -/
def waitOver (mask : Byte) (wantSet : Bool) (s : Byte) : Bool := statusBit s mask == wantSet

/-- `MemRead(addr, 1)[0]`. A read of one byte yields exactly one (`dataOf_length`), so the empty case does not
arise. -/
def oneByte (bytes : List Byte) : Byte := bytes.headD 0#8

end Sys2Proof.Machine
end

