-- ==== Sys2Proof/Machine/Wire.lean ====
section
/-! DEFINITION. The wire image of a transaction and the codes of the result lane (30_encoding.md rules R81, R98;
60_exceptions.md rule R220). -/

namespace Sys2Proof.Machine

/-- The bytes the block drives: the write opcode and the data of a `BusW`, the read opcode alone of a `BusR`;
no other event is on the bus (R81). -/
def Event.wire : Event → List Byte
  | .busW addr bytes _ => wrOp (addrByte addr) :: bytes
  | .busR addr _ _ => [rdOp (addrByte addr)]
  | .cmd _ => []
  | .res _ => []
  | .rstHigh _ => []
  | .rstLow _ => []
  | .delay _ => []

/-- The error codes 1 to 6, in the document's order (R220). -/
def ErrKind.code : ErrKind → Nat
  | .resetError => 1
  | .spiWriteError => 2
  | .spiReadError => 3
  | .configurationError => 4
  | .messageTooLarge => 5
  | .invalidMode => 6

/-- The status code of the result lane: 0 is `Ok` (R98). -/
def Result.status : Result → Nat
  | .ok _ => 0
  | .err e => ErrKind.code e

end Sys2Proof.Machine
end

