-- ==== Sys2Proof/Machine/Ops.lean ====
section
/-! DEFINITION. The named operations: what the environment answers, the five kinds of event, raising an error and
coming back to `Idle`, accepting a command (00_scope.md rules R6, R11; 20_memory.md rules R51 to R64;
60_exceptions.md rules R221 to R228). -/

namespace Sys2Proof.Machine

/-- The outcome of one step. -/
abbrev Out := Host.Outcome State Fault Refusal

/-! ### The environment's answers (R59, R60) -/

/-- The answer to the event after `k` further ones: from the script, and from the free oracle after its end. -/
def State.answerAt (s : State) (k : Nat) : Answer :=
  match s.answers[k]? with
  | some a => a
  | none => Config.oracle (s.drawn + k)

/-- Exactly `n` data bytes of the answer numbered `d`: the given ones, free ones where fewer are given. -/
def dataOf (d : Nat) : Nat → Nat → List Byte → List Byte
  | 0, _, _ => []
  | n + 1, i, [] => Config.oracleByte d i :: dataOf d n (i + 1) []
  | n + 1, i, b :: bs => b :: dataOf d n (i + 1) bs

/-- Whether the event after `k` further ones is answered `ok`. -/
def State.okAt (s : State) (k : Nat) : Bool :=
  match s.answerAt k with
  | .ok _ => true
  | .fail => false

/-- The data of a read of `n` bytes that is the event after `k` further ones; none if it is answered `fail`. -/
def State.dataAt (s : State) (k n : Nat) : Option (List Byte) :=
  match s.answerAt k with
  | .ok bytes => some (dataOf (s.drawn + k) n 0 bytes)
  | .fail => none

/-- One answer is used up. -/
def State.draw (s : State) : State := { s with answers := s.answers.drop 1, drawn := s.drawn + 1 }

/-! ### Small updates -/

/-- An event is observed. -/
def State.emit (e : Event) (s : State) : State := { s with trace := s.trace ++ [e] }

/-- The sequencer goes to a position. -/
def State.goto (p : Pos) (s : State) : State := { s with pc := .running p }

/-- The sequencer becomes `Idle`. -/
def State.toIdle (s : State) : State := { s with pc := .idle }

/-- `x[MODE] <- m`. -/
def State.cacheMode (m : Mode) (s : State) : State := { s with mode := m }

/-- `x[PWR] <- power`, verbatim. -/
def State.cachePower (power : BitVec 8) (s : State) : State := { s with pwr := power }

/-- The level of the reset line after a drive; a failed drive leaves it where it was (93 U18). -/
def State.driveLine (level : LineLevel) (acknowledged : Bool) (s : State) : State :=
  if acknowledged then { s with line := level } else s

/-- A chip reset ends what was known of its registers (R262). -/
def State.forgetChip (s : State) : State := { s with chip := [] }

/-- What a write transaction leaves in the record of register writes: nothing at the FIFO address, which does not
walk on to the next registers (R53); else the burst if it was acknowledged, and nothing known of the registers it
covers if it failed (R51). -/
def State.recordWrite (addr : Addr) (bytes : List Byte) (acknowledged : Bool) (s : State) : State :=
  if addr = s.cfg.aFifo then s
  else if acknowledged then { s with chip := Memory.storeBurst addr.toNat bytes s.chip }
  else { s with chip := Memory.forgetBurst addr.toNat bytes.length s.chip }

/-! ### Ends of a command -/

/-- `return v`: the event to come is `Res(Ok(v))` (R11). -/
def State.finishOk (c : Instr) (v : Value) (s : State) : State := s.goto (.finish c (.ok v))

/-- `raise e` (R224): TAKING AN ERROR. The event to come is `Res(Err(e))`; nothing is saved, no state register
changes, nothing is rolled back, and the whole outer command ends. -/
def State.raise (c : Instr) (e : ErrKind) (s : State) : State := s.goto (.finish c (.err e))

/-- The return from a command, with or without an error (R11, R224, R226): `Res(r)` is emitted and the block is
`Idle`, ready for any command. -/
def respond (r : Result) (s : State) : Out := .next ((s.emit (.res r)).toIdle)

/-! ### The primitives, each one event -/

/-- What the block may put on the bus: every register a transaction reaches is enumerated (R82, R99). A burst at
the FIFO address stays there; any other walks on by one per data byte (R53). -/
def legalBurst (cfg : Cfg) (addr : Addr) (n : Nat) : Bool :=
  isEnumerated addr.toNat &&
  (addr == cfg.aFifo || (List.range n).all (fun i => isEnumerated (addr.toNat + i)))

/-- The state right after the write transaction, whatever it was answered. -/
def State.afterWrite (addr : Addr) (bytes : List Byte) (s : State) : State :=
  ((s.draw.emit (.busW addr bytes (s.okAt 0))).recordWrite addr bytes (s.okAt 0))

/-- `MemWrite(addr, n, v)` (R51). -/
def memWrite (c : Instr) (addr : Addr) (bytes : List Byte) (next : State → State) (s : State) : Out :=
  if legalBurst s.cfg addr bytes.length then
    .next (if s.okAt 0 then next (s.afterWrite addr bytes) else (s.afterWrite addr bytes).raise c .spiWriteError)
  else .refused .addressNotEnumerated

/-- The state right after the read transaction, whatever it was answered. -/
def State.afterRead (addr : Addr) (n : Nat) (s : State) : State :=
  s.draw.emit (.busR addr n (s.dataAt 0 n))

/-- `MemRead(addr, n)` (R52). -/
def memRead (c : Instr) (addr : Addr) (n : Nat) (next : List Byte → State → State) (s : State) : Out :=
  if legalBurst s.cfg addr n then
    .next (match s.dataAt 0 n with
      | some bytes => next bytes (s.afterRead addr n)
      | none => (s.afterRead addr n).raise c .spiReadError)
  else .refused .addressNotEnumerated

/-- The state right after `RstHigh`, whatever it was answered: the chip is reset, or held, or not, and the record of
its registers ends. -/
def State.afterHigh (s : State) : State :=
  ((s.draw.emit (.rstHigh (s.okAt 0))).driveLine .high (s.okAt 0)).forgetChip

/-- `ResetLine(high)` (R11). -/
def lineHigh (c : Instr) (next : State → State) (s : State) : Out :=
  .next (if s.okAt 0 then next s.afterHigh else s.afterHigh.raise c .resetError)

/-- The state right after `RstLow`, whatever it was answered. -/
def State.afterLow (s : State) : State :=
  (s.draw.emit (.rstLow (s.okAt 0))).driveLine .low (s.okAt 0)

/-- `ResetLine(low)` (R11). -/
def lineLow (c : Instr) (next : State → State) (s : State) : Out :=
  .next (if s.okAt 0 then next s.afterLow else s.afterLow.raise c .resetError)

/-- `DelayUs(n)`, `DelayMs(n)`, `Delay(POLL_DELAY)`: "returns, cannot fail" (R6, R11). -/
def delayFor (d : Delay) (next : State → State) (s : State) : Out := .next (next (s.emit (.delay d)))

/-! ### One event of a command -/

/-- What the sequencer does at a position: one event, and what follows its answer up to the next event. -/
inductive Action where
  | write (addr : Addr) (bytes : List Byte) (next : State → State)
  | read (addr : Addr) (n : Nat) (next : List Byte → State → State)
  | lineHigh (next : State → State)
  | lineLow (next : State → State)
  | delay (d : Delay) (next : State → State)
  | result (r : Result)
  | fault (f : Fault)
  | refuse (r : Refusal)

/-- One event of the running command `c`. -/
def perform (c : Instr) (a : Action) (s : State) : Out :=
  match a with
  | .write addr bytes next => memWrite c addr bytes next s
  | .read addr n next => memRead c addr n next s
  | .lineHigh next => lineHigh c next s
  | .lineLow next => lineLow c next s
  | .delay d next => delayFor d next s
  | .result r => respond r s
  | .fault f => .fault f
  | .refuse r => .refused r

/-- At `Idle` a command is accepted: `Cmd(c, operands)` is observed and the sequencer goes to the first label
(R25). What the rule does before its first event happens here (DEDUCED, safe: log entry 8). -/
def accept (c : Instr) (start : State → State) (s : State) : Out := .next (start (s.emit (.cmd c)))

/-- The next event of command `c` if `c` is the one that is running; while another runs, `c` is not accepted
(R235). DEDUCED, safe (log entry 11). -/
def resume (c : Instr) (p : Pos) (a : Action) (s : State) : Out :=
  if p.command = c then perform c a s else .refused .commandWhileBusy

end Sys2Proof.Machine
end

