-- ==== Sys2Proof/Machine/Sequences.lean ====
section
/-! DEFINITION. The bodies that a `call` runs in line (00_scope.md rule R11): `WaitFlag`, `reset`, `set_mode`,
`set_modem_config`, `set_sync_words`, `set_tx_power`, `set_frequency` as parts of an outer command `c`. `wrap` puts
a label of the body into the outer command's positions, `done` is what follows the body. -/

namespace Sys2Proof.Machine

/-- `WaitFlag(addr, mask, want_set)` (R172): read; if the test fails, delay and read again, without a bound. -/
def waitAct (addr : Addr) (mask : Byte) (wantSet : Bool) (wrap : WaitPos → Pos) (done : State → State)
    (w : WaitPos) (s : State) : Action :=
  match w with
  | .poll => .read addr 1 (fun bytes t =>
      if waitOver mask wantSet (oneByte bytes) then done t else t.goto (wrap .sleep))
  | .sleep => .delay s.cfg.pollDelay (State.goto (wrap .poll))

/-- The body of `reset()` (R174): high, at least 100 µs, low, at least 5 ms. -/
def resetAct (wrap : ResetPos → Pos) (done : State → State) (p : ResetPos) : Action :=
  match p with
  | .high => .lineHigh (State.goto (wrap .hold))
  | .hold => .delay (.us 100) (State.goto (wrap .low))
  | .low => .lineLow (State.goto (wrap .settle))
  | .settle => .delay (.ms 5) done

/-- The first label of `set_mode(target)` (R173): none where the target is the cached mode, which makes it no event
at all; the test-PA writes on entry into Transmit or Receive at 18 dBm or more; else the mode read. -/
def setModeEntry (target : Mode) (s : State) : Option SetModePos :=
  if target = s.mode then none
  else if (target = .transmit ∨ target = .receive) ∧ wantsBoost s.pwr then some .testPa1
  else some .readMode

/-- `call set_mode(target)`: to its first label, or past it. -/
def enterSetMode (target : Mode) (wrap : SetModePos → Pos) (done : State → State) (s : State) : State :=
  match setModeEntry target s with
  | some p => s.goto (wrap p)
  | none => done s

/-- The byte for the first test-PA register: boost into Transmit, baseline into Receive (R173). -/
def testPa1For (cfg : Cfg) (target : Mode) : Byte :=
  if target = .transmit then cfg.testPa1Boost else cfg.testPa1Normal

/-- The byte for the second test-PA register (R173). -/
def testPa2For (cfg : Cfg) (target : Mode) : Byte :=
  if target = .transmit then cfg.testPa2Boost else cfg.testPa2Normal

/-- The body of `set_mode(target)` past its first test (R173). The cache is written last. -/
def setModeAct (target : Mode) (wrap : SetModePos → Pos) (done : State → State) (p : SetModePos) (s : State) :
    Action :=
  match p with
  | .testPa1 => .write s.cfg.aTestPa1 [testPa1For s.cfg target] (State.goto (wrap .testPa2))
  | .testPa2 => .write s.cfg.aTestPa2 [testPa2For s.cfg target] (State.goto (wrap .readMode))
  | .readMode => .read s.cfg.aOpMode 1 (fun bytes => State.goto (wrap (.writeMode (oneByte bytes))))
  | .writeMode old =>
      .write s.cfg.aOpMode [modeByte old (modeCode s.cfg target)] (State.goto (wrap (.ready .poll)))
  | .ready w =>
      waitAct s.cfg.aIrq1 s.cfg.mModeReady true (fun w => wrap (.ready w)) (fun t => done (t.cacheMode target)) w s

/-- The body of `set_modem_config(i)` (R131): bytes 0 to 4, 5 and 6, 7, each in one write. -/
def modemAct (i : BitVec 8) (wrap : ModemPos → Pos) (done : State → State) (p : ModemPos) (s : State) : Action :=
  match presetAt s.cfg i with
  | none => .refuse .presetNotInTable
  | some v =>
    match p with
    | .modulation => .write s.cfg.aDataModul [v.v0, v.v1, v.v2, v.v3, v.v4] (State.goto (wrap .bandwidth))
    | .bandwidth => .write s.cfg.aRxBw [v.v5, v.v6] (State.goto (wrap .packet))
    | .packet => .write s.cfg.aPacketConfig1 [v.v7] done

/-- `call set_sync_words(policy, words)` in command `c` (R142): the count check comes before any event. -/
def enterSetSyncWords (c : Instr) (words : List Byte) (first : Pos) (s : State) : State :=
  if badWordCount words then s.raise c .configurationError else s.goto first

/-- The one burst of `set_sync_words` (R142). -/
def syncWordsAct (policy : SyncPolicy) (words : List Byte) (done : State → State) (s : State) : Action :=
  .write s.cfg.aSyncConfig (syncByte policy words.length :: words) done

/-- `call set_tx_power(power)`: the cache is written first, verbatim (R151). -/
def enterSetTxPower (power : BitVec 8) (first : Pos) (s : State) : State := (s.cachePower power).goto first

/-- The one write of `set_tx_power` (R151). -/
def txPowerAct (power : BitVec 8) (done : State → State) (s : State) : Action :=
  .write s.cfg.aPaLevel [paByte s.cfg (dbm power) s.hp] done

/-- The one burst of `set_frequency` (R161). -/
def frequencyAct (freqMhz : BitVec 16) (done : State → State) (s : State) : Action :=
  match frfBytes s.cfg freqMhz with
  | none => .refuse .frequencyWordTooLarge
  | some bytes => .write s.cfg.aFrf bytes done

end Sys2Proof.Machine
end

