-- ==== Sys2Proof/Machine/Configure.lean ====
section
/-! DEFINITION. The configuration commands: `set_modem_config` (R131), `set_sync_words` (R142), `set_tx_power`
(R151), `set_frequency` (R161). Each meaning is one event of the command, from acceptance at `Idle` to its
result. -/

namespace Sys2Proof.Machine

/-- The event of `set_modem_config(i)` at a label. -/
def setModemConfigAct (i : BitVec 8) (p : ModemPos) (s : State) : Action :=
  modemAct i (.setModemConfig i) (State.finishOk (.setModemConfig i) .unit) p s

/-- `set_modem_config(i)` (R131). A selector outside `PRESETS` is refused at the port (R99). -/
def execSetModemConfig (i : BitVec 8) (s : State) : Out :=
  match s.pc with
  | .idle =>
    match presetAt s.cfg i with
    | some _ => accept (.setModemConfig i) (State.goto (.setModemConfig i .modulation)) s
    | none => .refused .presetNotInTable
  | .running (.setModemConfig j p) =>
      resume (.setModemConfig i) (.setModemConfig j p) (setModemConfigAct j p s) s
  | .running (.finish c r) => resume (.setModemConfig i) (.finish c r) (.result r) s
  | .running _ => .refused .commandWhileBusy

/-- The event of `set_sync_words(policy, words)` after its count check. -/
def setSyncWordsAct (policy : SyncPolicy) (words : List Byte) (s : State) : Action :=
  syncWordsAct policy words (State.finishOk (.setSyncWords policy words) .unit) s

/-- `set_sync_words(policy, words)` (R142). -/
def execSetSyncWords (policy : SyncPolicy) (words : List Byte) (s : State) : Out :=
  match s.pc with
  | .idle =>
      accept (.setSyncWords policy words)
        (enterSetSyncWords (.setSyncWords policy words) words (.setSyncWords policy words)) s
  | .running (.setSyncWords q ws) =>
      resume (.setSyncWords policy words) (.setSyncWords q ws) (setSyncWordsAct q ws s) s
  | .running (.finish c r) => resume (.setSyncWords policy words) (.finish c r) (.result r) s
  | .running _ => .refused .commandWhileBusy

/-- The event of `set_tx_power(power)` after its cache write. -/
def setTxPowerAct (power : BitVec 8) (s : State) : Action :=
  txPowerAct power (State.finishOk (.setTxPower power) .unit) s

/-- `set_tx_power(power)` (R151). -/
def execSetTxPower (power : BitVec 8) (s : State) : Out :=
  match s.pc with
  | .idle => accept (.setTxPower power) (enterSetTxPower power (.setTxPower power)) s
  | .running (.setTxPower q) => resume (.setTxPower power) (.setTxPower q) (setTxPowerAct q s) s
  | .running (.finish c r) => resume (.setTxPower power) (.finish c r) (.result r) s
  | .running _ => .refused .commandWhileBusy

/-- The event of `set_frequency(freq_mhz)`. -/
def setFrequencyAct (freqMhz : BitVec 16) (s : State) : Action :=
  frequencyAct freqMhz (State.finishOk (.setFrequency freqMhz) .unit) s

/-- `set_frequency(freq_mhz)` (R161). "A refused input makes the whole command refused: no event is emitted." -/
def execSetFrequency (freqMhz : BitVec 16) (s : State) : Out :=
  match s.pc with
  | .idle =>
    match frfBytes s.cfg freqMhz with
    | some _ => accept (.setFrequency freqMhz) (State.goto (.setFrequency freqMhz)) s
    | none => .refused .frequencyWordTooLarge
  | .running (.setFrequency f) => resume (.setFrequency freqMhz) (.setFrequency f) (setFrequencyAct f s) s
  | .running (.finish c r) => resume (.setFrequency freqMhz) (.finish c r) (.result r) s
  | .running _ => .refused .commandWhileBusy

end Sys2Proof.Machine
end

