-- ==== Sys2Proof/Machine/ModeSequencer.lean ====
section
/-! DEFINITION. The mode state machine: `set_mode` (46_mode_sequencer.md rule R173), the chip reset pulse `reset`
(R174) and `init` (R175). -/

namespace Sys2Proof.Machine

/-- The event of `set_mode(target)` at a label. -/
def setModeCmdAct (target : Mode) (p : SetModePos) (s : State) : Action :=
  setModeAct target (.setMode target) (State.finishOk (.setMode target) .unit) p s

/-- `set_mode(target)` (R173). -/
def execSetMode (target : Mode) (s : State) : Out :=
  match s.pc with
  | .idle =>
      accept (.setMode target)
        (enterSetMode target (.setMode target) (State.finishOk (.setMode target) .unit)) s
  | .running (.setMode m p) => resume (.setMode target) (.setMode m p) (setModeCmdAct m p s) s
  | .running (.finish c r) => resume (.setMode target) (.finish c r) (.result r) s
  | .running _ => .refused .commandWhileBusy

/-- The event of `reset()` at a label. -/
def resetCmdAct (p : ResetPos) : Action := resetAct .reset (State.finishOk .reset .unit) p

/-- `reset()` (R174). -/
def execReset (s : State) : Out :=
  match s.pc with
  | .idle => accept .reset (State.goto (.reset .high)) s
  | .running (.reset p) => resume .reset (.reset p) (resetCmdAct p) s
  | .running (.finish c r) => resume .reset (.finish c r) (.result r) s
  | .running _ => .refused .commandWhileBusy

/-- `init` step 12: `call set_mode(Standby)`, then `return unit`. -/
def initLastStep : State → State :=
  enterSetMode .standby (fun p => .init (.toStandby p)) (State.finishOk .init .unit)

/-- The event of `init()` at a label, steps 1 to 12 in order (R175). A version mismatch is reported as
`SpiReadError` (R221). -/
def initAct (p : InitPos) (s : State) : Action :=
  match p with
  | .pulse q => resetAct (fun q => .init (.pulse q)) (State.goto (.init .version)) q
  | .version => .read s.cfg.aVersion 1 (fun bytes t =>
      if oneByte bytes = t.cfg.versionByte then t.goto (.init .fifoThresh) else t.raise .init .spiReadError)
  | .fifoThresh => .write s.cfg.aFifoThresh [s.cfg.initFifoThresh] (State.goto (.init .dagc))
  | .dagc => .write s.cfg.aTestDagc [s.cfg.initDagc] (State.goto (.init .lna))
  | .lna => .write s.cfg.aLna [s.cfg.initLna]
      (enterSetSyncWords .init s.cfg.initSyncWords (.init .syncWords))
  | .syncWords => syncWordsAct s.cfg.initSyncPolicy s.cfg.initSyncWords (State.goto (.init .testPa1)) s
  | .testPa1 => .write s.cfg.aTestPa1 [s.cfg.testPa1Normal] (State.goto (.init .testPa2))
  | .testPa2 => .write s.cfg.aTestPa2 [s.cfg.testPa2Normal] (State.goto (.init (.modem .modulation)))
  | .modem q => modemAct s.cfg.initPreset (fun q => .init (.modem q)) (State.goto (.init .preamble)) q s
  | .preamble => .write s.cfg.aPreamble (preambleBytes s.cfg.initPreamble)
      (enterSetTxPower defaultPower (.init .txPower))
  | .txPower => txPowerAct defaultPower (State.goto (.init .frequency)) s
  | .frequency => frequencyAct s.cfg.initFreqMhz initLastStep s
  | .toStandby q =>
      setModeAct .standby (fun q => .init (.toStandby q)) (State.finishOk .init .unit) q s

/-- `init()` (R175). -/
def execInit (s : State) : Out :=
  match s.pc with
  | .idle => accept .init (State.goto (.init (.pulse .high))) s
  | .running (.init p) => resume .init (.init p) (initAct p s) s
  | .running (.finish c r) => resume .init (.finish c r) (.result r) s
  | .running _ => .refused .commandWhileBusy

end Sys2Proof.Machine
end

