-- ==== Sys2Proof/Machine/Packet.lean ====
section
/-! DEFINITION. The packet commands: `send` (47_packet_and_status.md rule R191), `is_message_available` (R192),
`receive` (R193). -/

namespace Sys2Proof.Machine

/-- The end of `send(payload)`: `call set_mode(Standby)`, then `return unit`. -/
def sendLastStep (payload : List Byte) : State → State :=
  enterSetMode .standby (fun p => .send payload (.toStandby p)) (State.finishOk (.send payload) .unit)

/-- The event of `send(payload)` at a label (R191). -/
def sendAct (payload : List Byte) (p : SendPos) (s : State) : Action :=
  match p with
  | .fifo => .write s.cfg.aFifo (frame payload)
      (enterSetMode .transmit (fun p => .send payload (.toTransmit p)) (State.goto (.send payload (.sent .poll))))
  | .toTransmit q =>
      setModeAct .transmit (fun q => .send payload (.toTransmit q)) (State.goto (.send payload (.sent .poll))) q s
  | .sent w =>
      waitAct s.cfg.aIrq2 s.cfg.mPacketSent true (fun w => .send payload (.sent w)) (sendLastStep payload) w s
  | .toStandby q =>
      setModeAct .standby (fun q => .send payload (.toStandby q)) (State.finishOk (.send payload) .unit) q s

/-- `send(payload)` (R191): the size check comes before any event. -/
def execSend (payload : List Byte) (s : State) : Out :=
  match s.pc with
  | .idle =>
      accept (.send payload) (fun t =>
        if maxPayload < payload.length then t.raise (.send payload) .messageTooLarge
        else t.goto (.send payload .fifo)) s
  | .running (.send q p) => resume (.send payload) (.send q p) (sendAct q p s) s
  | .running (.finish c r) => resume (.send payload) (.finish c r) (.result r) s
  | .running _ => .refused .commandWhileBusy

/-- The one read of `is_message_available()` (R192). -/
def isMessageAvailableAct (s : State) : Action :=
  .read s.cfg.aIrq2 1 (fun bytes t =>
    t.finishOk .isMessageAvailable (.flag (statusBit (oneByte bytes) t.cfg.mPayloadReady)))

/-- `is_message_available()` (R192): the test of the cached mode comes before any event. -/
def execIsMessageAvailable (s : State) : Out :=
  match s.pc with
  | .idle =>
      accept .isMessageAvailable (fun t =>
        if t.mode = .receive then t.goto .isMessageAvailable else t.raise .isMessageAvailable .invalidMode) s
  | .running .isMessageAvailable => resume .isMessageAvailable .isMessageAvailable (isMessageAvailableAct s) s
  | .running (.finish c r) => resume .isMessageAvailable (.finish c r) (.result r) s
  | .running _ => .refused .commandWhileBusy

/-- The checks of `receive` on the length byte `L`: above the capacity first, then below 4 (R193; log entry 15). -/
def receiveLength (capacity : Nat) (len : Byte) (s : State) : State :=
  if capacity < len.toNat then s.raise (.receive capacity) .messageTooLarge
  else if len.toNat < 4 then s.goto (.receive capacity .underflow)
  else s.goto (.receive capacity (.header len))

/-- After the header, which is discarded unchecked: the payload read, unless it has no byte and such a burst is not
issued, where the primitive yields `[]` without an event (R64). -/
def receivePayload (capacity : Nat) (len : Byte) (s : State) : State :=
  if payloadCount len = 0 ∧ s.cfg.zeroLenBurstIssued = false then s.finishOk (.receive capacity) (.bytes [])
  else s.goto (.receive capacity (.payload len))

/-- The event of `receive(capacity)` at a label (R193). -/
def receiveAct (capacity : Nat) (p : ReceivePos) (s : State) : Action :=
  match p with
  | .length => .read s.cfg.aFifo 1 (fun bytes => receiveLength capacity (oneByte bytes))
  | .underflow => .fault .lengthUnderflow
  | .header len => .read s.cfg.aFifo 4 (fun _ => receivePayload capacity len)
  | .payload len => .read s.cfg.aFifo (payloadCount len) (fun bytes =>
      State.finishOk (.receive capacity) (.bytes bytes))

/-- `receive(capacity)` (R193). -/
def execReceive (capacity : Nat) (s : State) : Out :=
  match s.pc with
  | .idle => accept (.receive capacity) (State.goto (.receive capacity .length)) s
  | .running (.receive n p) => resume (.receive capacity) (.receive n p) (receiveAct n p s) s
  | .running (.finish c r) => resume (.receive capacity) (.finish c r) (.result r) s
  | .running _ => .refused .commandWhileBusy

end Sys2Proof.Machine
end

