-- ==== Sys2Proof/Machine/Status.lean ====
section
/-! DEFINITION. The status commands: `read_temperature` (47_packet_and_status.md rule R194), `rssi` (R195),
`read_all_registers` (R196). -/

namespace Sys2Proof.Machine

/-- The event of `read_temperature()` at a label (R194). The start bit is written as a whole byte. -/
def readTemperatureAct (p : TempPos) (s : State) : Action :=
  match p with
  | .start => .write s.cfg.aTemp1 [s.cfg.mTempStart] (State.goto (.readTemperature (.running .poll)))
  | .running w =>
      waitAct s.cfg.aTemp1 s.cfg.mTempRunning false (fun w => .readTemperature (.running w))
        (State.goto (.readTemperature .raw)) w s
  | .raw => .read s.cfg.aTemp2 1 (fun bytes =>
      State.finishOk .readTemperature (.celsius (celsiusOf (oneByte bytes))))

/-- `read_temperature()` (R194). -/
def execReadTemperature (s : State) : Out :=
  match s.pc with
  | .idle => accept .readTemperature (State.goto (.readTemperature .start)) s
  | .running (.readTemperature p) =>
      resume .readTemperature (.readTemperature p) (readTemperatureAct p s) s
  | .running (.finish c r) => resume .readTemperature (.finish c r) (.result r) s
  | .running _ => .refused .commandWhileBusy

/-- The one read of `rssi()`; on the result lane the count of half decibels is the raw byte (R195). -/
def rssiAct (s : State) : Action :=
  .read s.cfg.aRssi 1 (fun bytes => State.finishOk .rssi (.halfDecibels (oneByte bytes)))

/-- `rssi()` (R195). -/
def execRssi (s : State) : Out :=
  match s.pc with
  | .idle => accept .rssi (State.goto .rssi) s
  | .running .rssi => resume .rssi .rssi (rssiAct s) s
  | .running (.finish c r) => resume .rssi (.finish c r) (.result r) s
  | .running _ => .refused .commandWhileBusy

/-- The event of `read_all_registers()` at a label: the core bank in one burst, then the four auxiliary registers
(R196). -/
def readAllRegistersAct (p : DumpPos) : Action :=
  match p with
  | .core => .read 0x00 80 (fun core => State.goto (.readAllRegisters (.aux58 core)))
  | .aux58 core => .read 0x58 1 (fun bytes => State.goto (.readAllRegisters (.aux5A core (oneByte bytes))))
  | .aux5A core a => .read 0x5A 1 (fun bytes => State.goto (.readAllRegisters (.aux5C core a (oneByte bytes))))
  | .aux5C core a b =>
      .read 0x5C 1 (fun bytes => State.goto (.readAllRegisters (.aux6F core a b (oneByte bytes))))
  | .aux6F core a b c => .read 0x6F 1 (fun bytes =>
      State.finishOk .readAllRegisters (.registers (dumpPairs core a b c (oneByte bytes))))

/-- `read_all_registers()` (R196). -/
def execReadAllRegisters (s : State) : Out :=
  match s.pc with
  | .idle => accept .readAllRegisters (State.goto (.readAllRegisters .core)) s
  | .running (.readAllRegisters p) => resume .readAllRegisters (.readAllRegisters p) (readAllRegistersAct p) s
  | .running (.finish c r) => resume .readAllRegisters (.finish c r) (.result r) s
  | .running _ => .refused .commandWhileBusy

end Sys2Proof.Machine
end

