-- ==== Sys2Proof/Machine/Bus.lean ====
section
/-! DEFINITION. The bus instructions `RD` and `WR` (41_register_opcodes.md rules R120, R121). A bus instruction is
the first byte of a transaction of the running command; outside one nothing is emitted (R60) and the host reaches
the bus only through commands (R50). Its framing, the number of data bytes or the data, is the transaction's
(R80). -/

namespace Sys2Proof.Machine

/-- What the sequencer does next at a position. -/
def actionAt (p : Pos) (s : State) : Action :=
  match p with
  | .init q => initAct q s
  | .reset q => resetCmdAct q
  | .setMode target q => setModeCmdAct target q s
  | .setModemConfig i q => setModemConfigAct i q s
  | .setSyncWords policy words => setSyncWordsAct policy words s
  | .setTxPower power => setTxPowerAct power s
  | .setFrequency f => setFrequencyAct f s
  | .send payload q => sendAct payload q s
  | .isMessageAvailable => isMessageAvailableAct s
  | .receive capacity q => receiveAct capacity q s
  | .readTemperature q => readTemperatureAct q s
  | .rssi => rssiAct s
  | .readAllRegisters q => readAllRegistersAct q
  | .finish _ r => .result r

/-- `RD addr` (R120): the read transaction at `addr` that the running command has come to. -/
def execRd (addr : Addr) (s : State) : Out :=
  match s.pc with
  | .idle => .refused .noSuchTransaction
  | .running p =>
    match actionAt p s with
    | .read a n next => if a = addr then perform p.command (.read a n next) s else .refused .noSuchTransaction
    | _ => .refused .noSuchTransaction

/-- `WR addr` (R121): the write transaction at `addr` that the running command has come to. -/
def execWr (addr : Addr) (s : State) : Out :=
  match s.pc with
  | .idle => .refused .noSuchTransaction
  | .running p =>
    match actionAt p s with
    | .write a bytes next => if a = addr then perform p.command (.write a bytes next) s else .refused .noSuchTransaction
    | _ => .refused .noSuchTransaction

/-- The instruction the machine is at inside a command: the bus instruction if the next event is a transaction,
else the command itself. -/
def instrAt (p : Pos) (s : State) : Instr :=
  match actionAt p s with
  | .read a _ _ => .rd a
  | .write a _ _ => .wr a
  | _ => p.command

end Sys2Proof.Machine
end

