-- ==== Sys2Proof/Machine/Dispatch.lean ====
section
/-! DEFINITION. The dispatch: one arm per constructor of Instr. -/

namespace Sys2Proof.Machine

/-- The meaning of an instruction, one event of it (R5, R25; log entry 11). -/
def exec (i : Instr) (s : State) : Host.Outcome State Fault Refusal :=
  match i with
  | .rd addr => Sys2Proof.Machine.execRd addr s
  | .wr addr => Sys2Proof.Machine.execWr addr s
  | .init => Sys2Proof.Machine.execInit s
  | .reset => Sys2Proof.Machine.execReset s
  | .setMode target => Sys2Proof.Machine.execSetMode target s
  | .setModemConfig p => Sys2Proof.Machine.execSetModemConfig p s
  | .setSyncWords policy words => Sys2Proof.Machine.execSetSyncWords policy words s
  | .setTxPower power => Sys2Proof.Machine.execSetTxPower power s
  | .setFrequency freqMhz => Sys2Proof.Machine.execSetFrequency freqMhz s
  | .send payload => Sys2Proof.Machine.execSend payload s
  | .isMessageAvailable => Sys2Proof.Machine.execIsMessageAvailable s
  | .receive capacity => Sys2Proof.Machine.execReceive capacity s
  | .readTemperature => Sys2Proof.Machine.execReadTemperature s
  | .rssi => Sys2Proof.Machine.execRssi s
  | .readAllRegisters => Sys2Proof.Machine.execReadAllRegisters s

end Sys2Proof.Machine
end

