-- ==== Sys2Proof/Machine/Step.lean ====
section
/-! DEFINITION. One step of the machine: one external event (00_scope.md rule R5), by the laws of the sequencer
position (10_state.md rule R25), and where a word to be run is placed. -/

namespace Sys2Proof.Machine

/-- At `Idle` the next command word is taken from the port, or the block waits if the host presents none (log
entry 9). Inside a command the instruction at the position is executed: the port is not looked at (R235). -/
def step (s : State) : Host.Outcome State Fault Refusal :=
  match s.pc with
  | .idle =>
    match s.port with
    | [] => .next s
    | w :: rest =>
      match decodeCmd w with
      | .ok i => exec i { s with port := rest }
      | .error e => .refused (.illegalCommandWord e)
  | .running p => exec (instrAt p s) s

/-- The word of an opcode-table row placed where step takes its next instruction (log entries 5 and 10). A command
word stands first on the command port of an idle block. A bus opcode is never fetched: it is the first byte of a
transaction of a running command; the shortest commands with one read and one write are `rssi` and `set_tx_power`, so
the block stands at that transaction, with the address it takes from the configuration made the opcode's. -/
def State.withFetchWord (s : State) (nbits w : Nat) : State :=
  match tableWord nbits w with
  | .port word => { s with pc := .idle, port := word :: s.port }
  | .bus opcode =>
    match decodeBus opcode with
    | .wr a => { s with pc := .running (.setTxPower s.pwr), cfg := { s.cfg with aPaLevel := a } }
    | .rd a => { s with pc := .running .rssi, cfg := { s.cfg with aRssi := a } }
    | _ => s

/-- The first `n` events of instruction `i` from a state, stopping at a fault or refusal: a command from its
acceptance on, for statements about whole commands. -/
def execFor (i : Instr) : Nat → State → Host.Outcome State Fault Refusal
  | 0, s => .next s
  | n + 1, s =>
    match exec i s with
    | .next t => execFor i n t
    | .fault f => .fault f
    | .refused r => .refused r

end Sys2Proof.Machine
end

