-- ==== Sys2Proof/Safety.lean ====
section
/-! DEFINITION. What claims are stated in: the error kinds and result values a command may end with
(60_exceptions.md rule R221, 30_encoding.md rule R96), the invariant of the sequencer (46_mode_sequencer.md rule R177
and the preconditions each label inherits from its rule), and names for whole runs. -/

namespace Sys2Proof.Machine

/-- "Commands and the kinds each can end with" (R221). A bus instruction ends no command. -/
def errKinds : Instr → List ErrKind
  | .rd _ => []
  | .wr _ => []
  | .init => [.resetError, .spiReadError, .spiWriteError]
  | .reset => [.resetError]
  | .setMode _ => [.spiWriteError, .spiReadError]
  | .setModemConfig _ => [.spiWriteError]
  | .setSyncWords _ _ => [.configurationError, .spiWriteError]
  | .setTxPower _ => [.spiWriteError]
  | .setFrequency _ => [.spiWriteError]
  | .send _ => [.messageTooLarge, .spiWriteError, .spiReadError]
  | .isMessageAvailable => [.invalidMode, .spiReadError]
  | .receive _ => [.spiReadError, .messageTooLarge]
  | .readTemperature => [.spiWriteError, .spiReadError]
  | .rssi => [.spiReadError]
  | .readAllRegisters => [.spiReadError]

/-- The value a command may return and what holds of the state then: the value types of R96, the cached mode and
power of R177 b and c, the ranges of R102. -/
def valueAllowed (s : State) : Instr → Value → Prop
  | .init, .unit => s.mode = .standby ∧ s.pwr = 13
  | .reset, .unit => s.line = .low
  | .setMode target, .unit => s.mode = target
  | .setModemConfig i, .unit => (presetAt s.cfg i).isSome = true
  | .setSyncWords _ words, .unit => badWordCount words = false
  | .setTxPower power, .unit => s.pwr = power
  | .setFrequency f, .unit => (frfBytes s.cfg f).isSome = true
  | .send payload, .unit => s.mode = .standby ∧ payload.length ≤ maxPayload
  | .isMessageAvailable, .flag _ => s.mode = .receive
  | .receive capacity, .bytes data => data.length + 4 ≤ capacity ∧ data.length ≤ 251
  | .readTemperature, .celsius t => -89 ≤ t ∧ t ≤ 166
  | .rssi, .halfDecibels _ => True
  | .readAllRegisters, .registers l => l.map Prod.fst = dumpAddresses
  | _, _ => False

/-- The result a command may end with. -/
def resultAllowed (s : State) (c : Instr) : Result → Prop
  | .ok v => valueAllowed s c v
  | .err e => e ∈ errKinds c

/-- The reset line inside the pulse (R174). -/
def resetPosOk (s : State) : ResetPos → Prop
  | .high => True
  | .hold => s.line = .high
  | .low => s.line = .high
  | .settle => s.line = .low

/-- Inside `set_mode(target)` the target is not the cached mode, and the test-PA labels are reached only on entry
into Transmit or Receive at 18 dBm or more (R173, R268). -/
def setModePosOk (s : State) (target : Mode) : SetModePos → Prop
  | .testPa1 => s.mode ≠ target ∧ (target = .transmit ∨ target = .receive) ∧ 18 ≤ dbm s.pwr
  | .testPa2 => s.mode ≠ target ∧ (target = .transmit ∨ target = .receive) ∧ 18 ≤ dbm s.pwr
  | .readMode => s.mode ≠ target
  | .writeMode _ => s.mode ≠ target
  | .ready _ => s.mode ≠ target

/-- Inside `init`: after the pulse the line is low, from step 10 on the cached power is 13 (R175). -/
def initPosOk (s : State) : InitPos → Prop
  | .pulse p => resetPosOk s p
  | .version => s.line = .low
  | .fifoThresh => s.line = .low
  | .dagc => s.line = .low
  | .lna => s.line = .low
  | .syncWords => s.line = .low
  | .testPa1 => s.line = .low
  | .testPa2 => s.line = .low
  | .modem _ => s.line = .low
  | .preamble => s.line = .low
  | .txPower => s.line = .low ∧ s.pwr = 13
  | .frequency => s.line = .low ∧ s.pwr = 13
  | .toStandby p => s.line = .low ∧ s.pwr = 13 ∧ setModePosOk s .standby p

/-- Inside `send`: while it waits for packet-sent and after, the cache says Transmit (R191, R270). -/
def sendPosOk (s : State) : SendPos → Prop
  | .fifo => True
  | .toTransmit p => setModePosOk s .transmit p
  | .sent _ => s.mode = .transmit
  | .toStandby p => s.mode = .transmit ∧ setModePosOk s .standby p

/-- Inside `receive` past its checks: the length byte is 4 to the capacity (R193), and an empty payload is read only
where such a burst is issued (R64). -/
def receivePosOk (s : State) (capacity : Nat) : ReceivePos → Prop
  | .length => True
  | .underflow => True
  | .header len => 4 ≤ len.toNat ∧ len.toNat ≤ capacity
  | .payload len =>
      4 ≤ len.toNat ∧ len.toNat ≤ capacity ∧ (payloadCount len = 0 → s.cfg.zeroLenBurstIssued = true)

/-- Inside `read_all_registers`: the core bank has been read whole (R196). -/
def dumpPosOk : DumpPos → Prop
  | .core => True
  | .aux58 core => core.length = 80
  | .aux5A core _ => core.length = 80
  | .aux5C core _ _ => core.length = 80
  | .aux6F core _ _ _ => core.length = 80

/-- What a position inherits from the checks its command has passed. -/
def posOk (s : State) : Pos → Prop
  | .init p => initPosOk s p
  | .reset p => resetPosOk s p
  | .setMode target p => setModePosOk s target p
  | .setModemConfig i _ => (presetAt s.cfg i).isSome = true
  | .setSyncWords _ words => badWordCount words = false
  | .setTxPower power => s.pwr = power
  | .setFrequency f => (frfBytes s.cfg f).isSome = true
  | .send payload p => payload.length ≤ maxPayload ∧ sendPosOk s p
  | .isMessageAvailable => s.mode = .receive
  | .receive capacity p => receivePosOk s capacity p
  | .readTemperature _ => True
  | .rssi => True
  | .readAllRegisters p => dumpPosOk p
  | .finish c r => c.isCommand = true ∧ resultAllowed s c r

/-- The same of the sequencer position. -/
def pcOk (s : State) : Pc → Prop
  | .idle => True
  | .running p => posOk s p

/-- The invariant: a configuration of this hardware, a record in canonical form, a position whose command has passed
its checks. -/
structure State.Inv (s : State) : Prop where
  cfg : s.cfg.valid = true
  chip : Memory.wf s.chip
  pc : pcOk s s.pc

/-! ### Names for whole runs -/

/-- The state with `n` answers used up and nothing else changed. -/
def State.answered (n : Nat) (s : State) : State :=
  { s with answers := s.answers.drop n, drawn := s.drawn + n }

/-- The state whose record holds these acknowledged writes, one after another. -/
def State.recordWrites : List (Addr × List Byte) → State → State
  | [], s => s
  | (a, bytes) :: rest, s => State.recordWrites rest (s.recordWrite a bytes true)

/-- An acknowledged write of each of these in turn, as events. -/
def writeEvents (l : List (Addr × List Byte)) : List Event := l.map (fun w => .busW w.1 w.2 true)

/-- The test-PA writes of an entry into `target` at this power: boost into Transmit, baseline into Receive, none
below 18 dBm or for another target (R171). -/
def testPaWrites (cfg : Cfg) (pwr : BitVec 8) (target : Mode) : List (Addr × List Byte) :=
  if 18 ≤ pwr.toInt then
    match target with
    | .transmit => [(cfg.aTestPa1, [cfg.testPa1Boost]), (cfg.aTestPa2, [cfg.testPa2Boost])]
    | .receive => [(cfg.aTestPa1, [cfg.testPa1Normal]), (cfg.aTestPa2, [cfg.testPa2Normal])]
    | .sleep => []
    | .standby => []
    | .frequencySynthesis => []
  else []

/-- The events that the environment answers: transactions and line drives. A delay "returns" and is given no answer
(R6). -/
def takesAnswer : Event → Bool
  | .cmd _ => false
  | .res _ => false
  | .busW _ _ _ => true
  | .busR _ _ _ => true
  | .rstHigh _ => true
  | .rstLow _ => true
  | .delay _ => false

/-- An outcome with the record of register writes left out, to compare what two runs do otherwise. -/
def sansRecord : Host.Outcome State Fault Refusal → Host.Outcome State Fault Refusal
  | .next t => .next { t with chip := [] }
  | .fault f => .fault f
  | .refused r => .refused r

/-- The events of a wait whose first reads give these bytes and do not end it: each a read and a delay (R172). -/
def waitEvents (addr : Addr) (d : Delay) (bytes : List Byte) : List Event :=
  bytes.flatMap (fun b => [.busR addr 1 (some [b]), .delay d])

end Sys2Proof.Machine
end

