-- ==== Sys2Proof/Certificates/Slice0/Obligations.lean ====
section
/-! DEFINITION. The statements for the provers. `execFor i n` is `exec i` applied `n` times, one event each.
`s.answered n` is `s` with `n` answers used up; `s.okAt k`, `s.dataAt k n` are what the environment will answer to the
event after `k` further answered ones. A statement about a command gives its whole next state: every field it does
not name is unchanged. `port`, `answers`, `drawn` and `trace` are the model's own fields (log entry 7), `chip` is its own
record of the register writes (log entry 6); what a statement says of them is the model's. `D<n>`, `U<n>`, `C<n>` are
entries of 92_eei_decisions.md, 93_implementation_defined.md, 90_conflicts.md: where a docstring names one, that clause
is the spec's own decision and not its source document's. -/

open Sys2Proof Sys2Proof.Machine

/-! ### Encodings -/

/-- R122 with its consequences a to d. -/
def Obligations.BusOpcodesDifferInBitSevenOnly : Prop :=
  (∀ r : Byte, wrOp r = rdOp r ||| 0x80#8 ∧ rdOp r = wrOp r &&& 0x7F#8) ∧
  (∀ a : Addr, rdOp (addrByte a) ≠ wrOp (addrByte a) ∧ wrOp (addrByte a) &&& 0x7F#8 = addrByte a ∧
    rdOp (addrByte a) ||| 0x80#8 = wrOp (addrByte a)) ∧
  (∀ a b : Addr, (rdOp (addrByte a) = rdOp (addrByte b) → a = b) ∧
    (wrOp (addrByte a) = wrOp (addrByte b) → a = b)) ∧
  (∀ o : Byte, (o.getLsbD 7 = true → decodeBus o = .wr (o.extractLsb' 0 7)) ∧
    (o.getLsbD 7 = false → decodeBus o = .rd (o.extractLsb' 0 7)))

/-- Words written out from R80, R96, R97 (those of programs P1 to P6 of 95_test_vectors.md) are the instructions they
stand for; a sanity statement. -/
def Obligations.WrittenOutWordsDecode : Prop :=
  decode (.bus 0x81#8) = .ok (.wr 0x01) ∧
  decode (.bus 0x6F#8) = .ok (.rd 0x6F) ∧
  decode (.port { code := 0x0 }) = .ok .init ∧
  decode (.port { code := 0x2, mode := 3 }) = .ok (.setMode .transmit) ∧
  decode (.port { code := 0x4, policyTag := 2, tolerance := 1, words := [0xAA, 0xBB, 0xCC, 0xDD] }) =
    .ok (.setSyncWords (.manualFill 1) [0xAA, 0xBB, 0xCC, 0xDD]) ∧
  decode (.port { code := 0x6, freqMhz := 0x0364 }) = .ok (.setFrequency 868) ∧
  decode (.port { code := 0x7, payload := [0x48, 0x69] }) = .ok (.send [0x48, 0x69]) ∧
  decode (.port { code := 0x9, capacity := 16 }) = .ok (.receive 16) ∧
  decode (.port { code := 0xB }) = .ok .rssi ∧
  decode (.port { code := 0xE }) = .error .reservedCommandCode

/-- Decode and encode agree: every well-formed instruction with every operand is read back from its word, a bus
instruction at every 7-bit address, and every bus byte is the word of what it decodes to. -/
def Obligations.DecodeOfEncodeIsTheInstruction : Prop :=
  (∀ i : Instr, i.wellFormed = true → decode (encode i) = .ok i) ∧
  (∀ a : Addr, decode (encode (.rd a)) = .ok (.rd a) ∧ decode (encode (.wr a)) = .ok (.wr a)) ∧
  (∀ o : Byte, encode (decodeBus o) = .bus o)

/-- The illegal and reserved encodings of R99 on the command port: refused, each by name. -/
def Obligations.PortRefusesReservedAndIllegalWords : Prop :=
  ∀ (s : State) (w : CmdWord) (rest : List CmdWord), s.pc = .idle → s.port = w :: rest →
    (13 ≤ w.code.toNat → step s = .refused (.illegalCommandWord .reservedCommandCode)) ∧
    (w.code = 2 → 5 ≤ w.mode.toNat → step s = .refused (.illegalCommandWord .illegalModeTag)) ∧
    (w.code = 4 → w.policyTag = 3 → step s = .refused (.illegalCommandWord .illegalPolicyTag)) ∧
    (w.code = 3 → s.cfg.presets.length ≤ w.preset.toNat → step s = .refused .presetNotInTable) ∧
    (w.code = 6 → 2 ^ 24 ≤ w.freqMhz.toNat * s.cfg.fStepNumerator / s.cfg.fOscDenominator →
      step s = .refused .frequencyWordTooLarge)

/-! ### The step -/

/-- At `Idle` a step runs the command the port's first word decodes to, and takes the word off the port (R25); with
no word presented the block waits, which is the model's choice (log entry 9). -/
def Obligations.StepRunsTheDecodedCommand : Prop :=
  ∀ s : State, s.pc = .idle →
    (∀ w rest i, s.port = w :: rest → decode (.port w) = .ok i → step s = exec i { s with port := rest }) ∧
    (s.port = [] → step s = .next s)

/-- Inside a command a step performs the event at the position (R25), whose wire image, if it is a transaction, a bus
opcode leads (R81). That this event is the meaning of that bus instruction, else of the command, and that running the
command itself is the same step, is the model's choice and no sentence of a rule (log entry 11, DEDUCED, DESIGN CHOICE
in its form). -/
def Obligations.StepInsideACommandRunsTheInstructionThere : Prop :=
  ∀ (s : State) (p : Pos), s.pc = .running p →
    (∀ a n k, actionAt p s = .read a n k → step s = exec (.rd a) s) ∧
    (∀ a bytes k, actionAt p s = .write a bytes k → step s = exec (.wr a) s) ∧
    (p.command.isCommand = true → exec p.command s = step s)

/-- `RD a` completes where the running command has come to a read at `a`: one `BusR` with the transaction's number of
bytes, its wire image led by the read opcode; the answer, and nothing else of the environment, is used up. The cached
mode, which a read that ends a mode-ready wait writes, and the position are left to other statements. Anywhere else,
inside a command at another event and at `Idle`, where nothing is emitted (R60), it is refused: that this is a refusal
by name is the model's choice (log entry 11). -/
def Obligations.ReadOpcodeCompletesAsOneTransaction : Prop :=
  ∀ (s : State) (a : Addr),
    (∀ p, s.pc = .running p →
      (∀ n k, actionAt p s = .read a n k → legalBurst s.cfg a n = true →
        ∃ t, exec (.rd a) s = .next t ∧ t.trace = s.trace ++ [.busR a n (s.dataAt 0 n)] ∧
          (Event.busR a n (s.dataAt 0 n)).wire = [addrByte a &&& 0x7F#8] ∧
          t.answers = s.answers.drop 1 ∧ t.drawn = s.drawn + 1 ∧
          t.pwr = s.pwr ∧ t.hp = s.hp ∧ t.line = s.line ∧ t.cfg = s.cfg ∧ t.port = s.port ∧ t.chip = s.chip) ∧
      ((∀ n k, actionAt p s ≠ .read a n k) → exec (.rd a) s = .refused .noSuchTransaction)) ∧
    (s.pc = .idle → exec (.rd a) s = .refused .noSuchTransaction)

/-- `WR a` completes where the running command has come to a write at `a`: one `BusW` of the transaction's bytes, its
wire image led by the write opcode. The cached mode is untouched; the cached power changes only at the preamble write
of `init`, in whose step `set_tx_power` of step 10 caches it (log entry 8). Anywhere else, inside a command at another
event and at `Idle`, where nothing is emitted (R60), it is refused: that this is a refusal by name is the model's choice
(log entry 11). -/
def Obligations.WriteOpcodeCompletesAsOneTransaction : Prop :=
  ∀ (s : State) (a : Addr),
    (∀ p, s.pc = .running p →
      (∀ bytes k, actionAt p s = .write a bytes k → legalBurst s.cfg a bytes.length = true →
        ∃ t, exec (.wr a) s = .next t ∧ t.trace = s.trace ++ [.busW a bytes (s.okAt 0)] ∧
          (Event.busW a bytes (s.okAt 0)).wire = (addrByte a ||| 0x80#8) :: bytes ∧
          t.answers = s.answers.drop 1 ∧ t.drawn = s.drawn + 1 ∧
          t.mode = s.mode ∧ (p ≠ .init .preamble → t.pwr = s.pwr) ∧ t.hp = s.hp ∧ t.line = s.line ∧
          t.cfg = s.cfg ∧ t.port = s.port ∧ t.chip = (s.recordWrite a bytes (s.okAt 0)).chip) ∧
      ((∀ bytes k, actionAt p s ≠ .write a bytes k) → exec (.wr a) s = .refused .noSuchTransaction)) ∧
    (s.pc = .idle → exec (.wr a) s = .refused .noSuchTransaction)

/-- At `Idle` every command is accepted, before `init` too: `Cmd` is observed and the sequencer stands at the first
event of the command's rule, or at its result where the rule raises or returns before any event: `set_mode` to the
cached mode, a sync-word list of length 0 or above 8, a payload above 60 bytes, `is_message_available` outside Receive.
`set_mode` starts with the test-PA writes exactly where it enters Transmit or Receive at 18 dBm or more (R173). That
what a rule does before its first event (these checks, the power cache) happens in the step of `Cmd` is DEDUCED (log
entry 8). -/
def Obligations.EveryCommandIsAcceptedAtIdle : Prop :=
  ∀ s : State, s.pc = .idle →
    exec .init s =
      .next { s with pc := .running (.init (.pulse .high)), trace := s.trace ++ [.cmd .init] } ∧
    exec .reset s = .next { s with pc := .running (.reset .high), trace := s.trace ++ [.cmd .reset] } ∧
    (∀ target, target ≠ s.mode → (target = .transmit ∨ target = .receive) ∧ 18 ≤ s.pwr.toInt →
      exec (.setMode target) s =
        .next { s with pc := .running (.setMode target .testPa1), trace := s.trace ++ [.cmd (.setMode target)] }) ∧
    (∀ target, target ≠ s.mode → ¬ ((target = .transmit ∨ target = .receive) ∧ 18 ≤ s.pwr.toInt) →
      exec (.setMode target) s =
        .next { s with pc := .running (.setMode target .readMode), trace := s.trace ++ [.cmd (.setMode target)] }) ∧
    exec (.setMode s.mode) s =
      .next { s with pc := .running (.finish (.setMode s.mode) (.ok .unit)),
                     trace := s.trace ++ [.cmd (.setMode s.mode)] } ∧
    (∀ i : BitVec 8, i.toNat < s.cfg.presets.length → exec (.setModemConfig i) s =
      .next { s with pc := .running (.setModemConfig i .modulation),
                     trace := s.trace ++ [.cmd (.setModemConfig i)] }) ∧
    (∀ policy words, 1 ≤ words.length → words.length ≤ 8 → exec (.setSyncWords policy words) s =
      .next { s with pc := .running (.setSyncWords policy words),
                     trace := s.trace ++ [.cmd (.setSyncWords policy words)] }) ∧
    (∀ policy words, words.length = 0 ∨ 8 < words.length → exec (.setSyncWords policy words) s =
      .next { s with pc := .running (.finish (.setSyncWords policy words) (.err .configurationError)),
                     trace := s.trace ++ [.cmd (.setSyncWords policy words)] }) ∧
    (∀ power, exec (.setTxPower power) s =
      .next { s with pwr := power, pc := .running (.setTxPower power),
                     trace := s.trace ++ [.cmd (.setTxPower power)] }) ∧
    (∀ f : BitVec 16, f.toNat * s.cfg.fStepNumerator / s.cfg.fOscDenominator < 2 ^ 24 →
      exec (.setFrequency f) s =
        .next { s with pc := .running (.setFrequency f), trace := s.trace ++ [.cmd (.setFrequency f)] }) ∧
    (∀ payload, payload.length ≤ 60 → exec (.send payload) s =
      .next { s with pc := .running (.send payload .fifo), trace := s.trace ++ [.cmd (.send payload)] }) ∧
    (∀ payload, 60 < payload.length → exec (.send payload) s =
      .next { s with pc := .running (.finish (.send payload) (.err .messageTooLarge)),
                     trace := s.trace ++ [.cmd (.send payload)] }) ∧
    (s.mode = .receive → exec .isMessageAvailable s =
      .next { s with pc := .running .isMessageAvailable, trace := s.trace ++ [.cmd .isMessageAvailable] }) ∧
    (s.mode ≠ .receive → exec .isMessageAvailable s =
      .next { s with pc := .running (.finish .isMessageAvailable (.err .invalidMode)),
                     trace := s.trace ++ [.cmd .isMessageAvailable] }) ∧
    (∀ capacity, exec (.receive capacity) s =
      .next { s with pc := .running (.receive capacity .length),
                     trace := s.trace ++ [.cmd (.receive capacity)] }) ∧
    exec .readTemperature s =
      .next { s with pc := .running (.readTemperature .start), trace := s.trace ++ [.cmd .readTemperature] } ∧
    exec .rssi s = .next { s with pc := .running .rssi, trace := s.trace ++ [.cmd .rssi] } ∧
    exec .readAllRegisters s =
      .next { s with pc := .running (.readAllRegisters .core), trace := s.trace ++ [.cmd .readAllRegisters] }

/-- R235: while a command runs no other is accepted. That it is refused is D28, U16. -/
def Obligations.BusyBlockRefusesAnotherCommand : Prop :=
  ∀ (s : State) (p : Pos) (i : Instr), s.pc = .running p → i.isCommand = true → i ≠ p.command →
    exec i s = .refused .commandWhileBusy

/-- A step is one external event (R5), issued once and answered before the next (R60): exactly one event is added, a
command event exactly from `Idle`, and one answer is used up exactly by a transaction or a line drive. -/
def Obligations.EachInstructionEmitsExactlyOneEvent : Prop :=
  ∀ (i : Instr) (s t : State), exec i s = .next t →
    ∃ e, t.trace = s.trace ++ [e] ∧ (s.pc = .idle ↔ e = .cmd i) ∧
      (takesAnswer e = true → t.answers = s.answers.drop 1 ∧ t.drawn = s.drawn + 1) ∧
      (takesAnswer e = false → t.answers = s.answers ∧ t.drawn = s.drawn)

/-- R82: only addresses of the closed enumeration are emitted, and so is every register that a burst walks on to. A
burst at the FIFO address is exempt from the second part: it walks on to no register. That it does not is R53's general
knowledge (93 G14), and that such a burst is legal at an enumerated address is DEDUCED (log entry 14). -/
def Obligations.OnlyEnumeratedAddressesAreEmitted : Prop :=
  ∀ (i : Instr) (s t : State), exec i s = .next t →
    (∀ a bytes ok, t.trace = s.trace ++ [.busW a bytes ok] → isEnumerated a.toNat = true ∧
      (a = s.cfg.aFifo ∨ ∀ j < bytes.length, isEnumerated (a.toNat + j) = true)) ∧
    (∀ a n bytes, t.trace = s.trace ++ [.busR a n bytes] → isEnumerated a.toNat = true ∧
      (a = s.cfg.aFifo ∨ ∀ j < n, isEnumerated (a.toNat + j) = true))

/-! ### Frames -/

/-- R23: no rule writes the topology flag; the configuration, the preset ROM in it, is immutable (R37); no instruction
touches the command port. -/
def Obligations.TopologyFlagAndConfigurationNeverChange : Prop :=
  ∀ (i : Instr) (s t : State), exec i s = .next t → t.hp = s.hp ∧ t.cfg = s.cfg ∧ t.port = s.port

/-- R177 a and d: the cached mode changes only at the poll read that shows mode-ready, in `set_mode` alone or called
from `send` or `init`, and becomes the target. -/
def Obligations.CachedModeChangesOnlyWhenModeReadyIsSeen : Prop :=
  ∀ (i : Instr) (s t : State), exec i s = .next t → t.mode ≠ s.mode →
    (∃ b, s.dataAt 0 1 = some [b] ∧ b &&& s.cfg.mModeReady ≠ 0#8) ∧
    (s.pc = .running (.setMode t.mode (.ready .poll)) ∨
     (s.pc = .running (.init (.toStandby (.ready .poll))) ∧ t.mode = .standby) ∨
     (∃ payload, s.pc = .running (.send payload (.toTransmit (.ready .poll))) ∧ t.mode = .transmit) ∨
     (∃ payload, s.pc = .running (.send payload (.toStandby (.ready .poll))) ∧ t.mode = .standby))

/-- R22: the cached power is written only by `set_tx_power`, verbatim, "also when `init` calls it" with 13. Which step
that is, the one of `Cmd` and inside `init` the one of the preamble write, is the model's placing of what a rule does
before its next event (log entry 8, DEDUCED). -/
def Obligations.CachedPowerIsWrittenOnlyBySetTxPower : Prop :=
  ∀ (i : Instr) (s t : State), exec i s = .next t → t.pwr ≠ s.pwr →
    (s.pc = .idle ∧ i = .setTxPower t.pwr) ∨ (s.pc = .running (.init .preamble) ∧ t.pwr = 13)

/-- The reset line changes only by a drive that was acknowledged; a failed drive leaves it where it was (93 U18). -/
def Obligations.ResetLineChangesOnlyByAnAcknowledgedDrive : Prop :=
  ∀ (i : Instr) (s t : State), exec i s = .next t → t.line ≠ s.line →
    (t.trace = s.trace ++ [.rstHigh true] ∧ t.line = .high) ∨ (t.trace = s.trace ++ [.rstLow true] ∧ t.line = .low)

/-- The frame of the register record, for every instruction: a register reads as before unless the event is a write
transaction that reaches it, not at the FIFO address, or the chip is being reset. -/
def Obligations.RegisterRecordChangesOnlyWhereWritten : Prop :=
  ∀ (i : Instr) (s t : State) (r : Nat), exec i s = .next t → Memory.read r t.chip ≠ Memory.read r s.chip →
    (∃ a bytes ok, t.trace = s.trace ++ [.busW a bytes ok] ∧ a ≠ s.cfg.aFifo ∧
      a.toNat ≤ r ∧ r < a.toNat + bytes.length) ∨
    (∃ ok, t.trace = s.trace ++ [.rstHigh ok])

/-- R59: "not that a register reads back what was last written". What an instruction does never depends on what was
written to the registers before. -/
def Obligations.RegisterRecordIsNeverRead : Prop :=
  ∀ (i : Instr) (s : State) (m : Memory), sansRecord (exec i { s with chip := m }) = sansRecord (exec i s)

/-- R123 with R53: an acknowledged burst puts byte `j` into register `a + j` and nothing elsewhere, except at the FIFO
address; a failed one leaves nothing known of the registers it covers (R51). The canonical form is kept. -/
def Obligations.BurstWritesConsecutiveRegisters : Prop :=
  ∀ (s : State) (a : Addr) (bytes : List Byte), Memory.wf s.chip →
    (∀ ok, Memory.wf (s.recordWrite a bytes ok).chip) ∧
    (∀ ok, a = s.cfg.aFifo → (s.recordWrite a bytes ok).chip = s.chip) ∧
    (a ≠ s.cfg.aFifo →
      (∀ (j : Nat) (h : j < bytes.length),
        Memory.read (a.toNat + j) (s.recordWrite a bytes true).chip = some bytes[j]) ∧
      (∀ j < bytes.length, Memory.read (a.toNat + j) (s.recordWrite a bytes false).chip = none) ∧
      (∀ r ok, (r < a.toNat ∨ a.toNat + bytes.length ≤ r) →
        Memory.read r (s.recordWrite a bytes ok).chip = Memory.read r s.chip))

/-! ### Reset, errors, the invariant -/

/-- R260: what block reset leaves, for every configuration. -/
def Obligations.BlockResetLeavesStandbyThirteenAndIdle : Prop :=
  ∀ cfg : Cfg, (State.blockReset cfg).mode = .standby ∧ (State.blockReset cfg).pwr.toInt = 13 ∧
    (State.blockReset cfg).hp = cfg.highPowerStrap ∧ (State.blockReset cfg).pc = .idle ∧
    (State.blockReset cfg).trace = [] ∧ (State.blockReset cfg).cfg.presets = cfg.presets

/-- The invariant holds after block reset with every configuration of this hardware, and at the reset state. -/
def Obligations.InvariantHoldsAfterBlockReset : Prop :=
  (∀ cfg : Cfg, cfg.valid = true → (State.blockReset cfg).Inv) ∧ State.reset.Inv

/-- Every step keeps the invariant: the record of register writes stays canonical; a position is reached only past its
command's checks, with the mode, power and line of its rule; a result is one its command may end with (R221, R96,
R177 b and c). -/
def Obligations.EveryStepKeepsTheInvariant : Prop :=
  ∀ s t : State, s.Inv → step s = .next t → t.Inv

/-- Inside a command the machine never stops, but at the underflow of `receive`: with a configuration of this hardware
no transaction, preset or frequency is refused (R82, R99). -/
def Obligations.RunningCommandNeverStopsExceptOnUnderflow : Prop :=
  ∀ (s : State) (p : Pos), s.Inv → s.pc = .running p →
    (∃ t, step s = .next t) ∨
    ((∃ capacity, p = .receive capacity .underflow) ∧ step s = .fault .lengthUnderflow)

/-- R221, R224: a `fail` answer is reported at the failing event, by the kind of the event, whichever command is
running, outer command of a `call` included; no state register changes, nothing more is emitted but the result. -/
def Obligations.FailedAnswerRaisesItsErrorAtOnce : Prop :=
  ∀ (s : State) (p : Pos), s.pc = .running p → s.okAt 0 = false →
    (∀ a bytes k, actionAt p s = .write a bytes k → legalBurst s.cfg a bytes.length = true →
      step s = .next { s.answered 1 with
        pc := .running (.finish p.command (.err .spiWriteError)),
        trace := s.trace ++ [.busW a bytes false],
        chip := (s.recordWrite a bytes false).chip }) ∧
    (∀ a n k, actionAt p s = .read a n k → legalBurst s.cfg a n = true →
      step s = .next { s.answered 1 with
        pc := .running (.finish p.command (.err .spiReadError)),
        trace := s.trace ++ [.busR a n none] }) ∧
    (∀ k, actionAt p s = .lineHigh k →
      step s = .next { s.answered 1 with
        pc := .running (.finish p.command (.err .resetError)),
        trace := s.trace ++ [.rstHigh false],
        chip := [] }) ∧
    (∀ k, actionAt p s = .lineLow k →
      step s = .next { s.answered 1 with
        pc := .running (.finish p.command (.err .resetError)),
        trace := s.trace ++ [.rstLow false] })

/-- R224, R226: at its result, `Ok` or `Err`, a command emits `Res` and the block is `Idle`; no other field changes,
nothing is saved and nothing rolled back. -/
def Obligations.ResultIsEmittedAndTheBlockIsIdle : Prop :=
  ∀ (s : State) (c : Instr) (r : Result), s.pc = .running (.finish c r) → c.isCommand = true →
    exec c s = .next { s with pc := .idle, trace := s.trace ++ [.res r] } ∧
    step s = .next { s with pc := .idle, trace := s.trace ++ [.res r] }

/-! ### The calculators -/

/-- R150 with the sums of R152: each branch's byte is its enable bits plus `p + k`, for every signed power. -/
def Obligations.PaControlByteIsEnableBitsPlusOffset : Prop :=
  ∀ (cfg : Cfg) (power : Int), cfg.valid = true →
    (clamp power (-2) 20 ≤ 13 →
      ((paByte cfg power true).toNat : Int) = 0x40 + (clamp power (-2) 20 + 18)) ∧
    (14 ≤ clamp power (-2) 20 → clamp power (-2) 20 ≤ 17 →
      ((paByte cfg power true).toNat : Int) = 0x40 + cfg.pa2On.toNat + (clamp power (-2) 20 + 14)) ∧
    (18 ≤ clamp power (-2) 20 →
      ((paByte cfg power true).toNat : Int) = 0x40 + cfg.pa2On.toNat + (clamp power (-2) 20 + 11)) ∧
    ((paByte cfg power false).toNat : Int) = cfg.pa0On.toNat + (clamp power (-18) 13 + 18)

/-- R140: the byte of each policy. R141, which the spec derives from R140: the range it lies in, the fields read back
from it, and that every value of the low six bits is produced. -/
def Obligations.SyncConfigurationByteCarriesItsFields : Prop :=
  (∀ n : Nat, syncByte .off n = 0x00#8) ∧
  (∀ (tol : BitVec 8) (n : Nat),
    ((syncByte (.autoFill tol) n).toNat : Int) = 0x80 + (clamp n 1 8 - 1) * 8 + clamp tol.toNat 0 7 ∧
    ((syncByte (.manualFill tol) n).toNat : Int) = 0xC0 + (clamp n 1 8 - 1) * 8 + clamp tol.toNat 0 7) ∧
  (∀ (policy : SyncPolicy) (n : Nat), syncByte policy n = 0x00#8 ∨ 0x80 ≤ (syncByte policy n).toNat) ∧
  (∀ (tol : BitVec 8) (n : Nat) (b : Byte), b = syncByte (.autoFill tol) n ∨ b = syncByte (.manualFill tol) n →
    b.getLsbD 7 = true ∧ (b.getLsbD 6 = true ↔ b = syncByte (.manualFill tol) n) ∧
    ((b.extractLsb' 3 3).toNat : Int) + 1 = clamp n 1 8 ∧ ((b.extractLsb' 0 3).toNat : Int) = clamp tol.toNat 0 7) ∧
  (∀ x : BitVec 6, ∃ (tol : BitVec 8) (n : Nat),
    (syncByte (.autoFill tol) n).extractLsb' 0 6 = x ∧ (syncByte (.manualFill tol) n).extractLsb' 0 6 = x)

/-- R160 with the document's vector, and R162 a, b, d: the three bytes read as one number are the truncated quotient; an
input whose word needs more than 24 bits has no bytes (U3); larger frequencies have no smaller words. -/
def Obligations.SynthesizerBytesAreTheTruncatedQuotient : Prop :=
  (∀ (cfg : Cfg) (f : BitVec 16), f.toNat * cfg.fStepNumerator / cfg.fOscDenominator < 2 ^ 24 →
    ∃ b2 b1 b0 : Byte, frfBytes cfg f = some [b2, b1, b0] ∧
      b2.toNat * 65536 + b1.toNat * 256 + b0.toNat = f.toNat * cfg.fStepNumerator / cfg.fOscDenominator) ∧
  (∀ (cfg : Cfg) (f : BitVec 16), 2 ^ 24 ≤ f.toNat * cfg.fStepNumerator / cfg.fOscDenominator →
    frfBytes cfg f = none) ∧
  (∀ (cfg : Cfg) (f g : BitVec 16), f.toNat ≤ g.toNat → frfWord cfg f ≤ frfWord cfg g) ∧
  (∀ cfg : Cfg, cfg.valid = true → frfBytes cfg 915 = some [0xE4, 0xC0, 0x00]) ∧
  (∀ cfg : Cfg, frfBytes cfg 0 = some [0x00, 0x00, 0x00]) ∧
  (∀ (cfg : Cfg) (f : BitVec 16), cfg.fStepNumerator = 524288 → cfg.fOscDenominator = 32 →
    frfWord cfg f = f.toNat * 16384 ∧ (frfWord cfg f < 2 ^ 24 ↔ f.toNat ≤ 1023))

/-- R84: the mode byte carries the code in bits 4:2 and keeps the other bits of the byte read; the field values of the
default codes. -/
def Obligations.ModeByteReplacesOnlyTheModeField : Prop :=
  ∀ (old : Byte) (code : BitVec 3),
    (modeByte old code).extractLsb' 2 3 = code ∧
    (modeByte old code).extractLsb' 5 3 = old.extractLsb' 5 3 ∧
    (modeByte old code).extractLsb' 0 2 = old.extractLsb' 0 2 ∧
    modeByte old code = (old &&& 0xE3#8) ||| BitVec.ofNat 8 (4 * code.toNat) ∧
    modeByte 0x00 0 = 0x00#8 ∧ modeByte 0x00 1 = 0x04#8 ∧ modeByte 0x00 2 = 0x08#8 ∧ modeByte 0x00 3 = 0x0C#8 ∧
    modeByte 0x00 4 = 0x10#8

/-- R190: the frame of a payload of at most 60 bytes, its length byte, and the payload read back from it. -/
def Obligations.FrameIsLengthHeaderPayload : Prop :=
  ∀ payload : List Byte, payload.length ≤ 60 →
    ∃ len : Byte, frame payload = len :: [0xFF, 0xFF, 0x00, 0x00] ++ payload ∧
      len.toNat = payload.length + 4 ∧ (frame payload).length = 5 + payload.length ∧
      ((frame payload).drop 5).take (len.toNat - 4) = payload

/-! ### Whole commands -/

/-- `set_frequency` (R161): one burst of the word's three bytes, high byte first, acknowledged or not, and the result;
or, where the word needs more than 24 bits, refused with no event (U3). -/
def Obligations.SetFrequencyWritesTheWordInOneBurst : Prop :=
  ∀ (s : State) (f : BitVec 16), s.cfg.valid = true → s.pc = .idle →
    let word := f.toNat * s.cfg.fStepNumerator / s.cfg.fOscDenominator
    let bytes := [BitVec.ofNat 8 (word / 65536), BitVec.ofNat 8 (word / 256), BitVec.ofNat 8 word]
    (word < 2 ^ 24 → execFor (.setFrequency f) 3 s = .next { s.answered 1 with
      trace := s.trace ++ [.cmd (.setFrequency f), .busW s.cfg.aFrf bytes (s.okAt 0),
        .res (if s.okAt 0 then .ok .unit else .err .spiWriteError)],
      chip := (s.recordWrite s.cfg.aFrf bytes (s.okAt 0)).chip }) ∧
    (2 ^ 24 ≤ word → exec (.setFrequency f) s = .refused .frequencyWordTooLarge)

/-- `set_tx_power` (R151): the power is cached verbatim, whatever the write is answered, and the PA control byte of the
requested power and the topology flag is written. That a failed write leaves the new power cached is D17. -/
def Obligations.SetTxPowerCachesVerbatimAndWritesThePaByte : Prop :=
  ∀ (s : State) (power : BitVec 8), s.cfg.valid = true → s.pc = .idle →
    execFor (.setTxPower power) 3 s = .next { s.answered 1 with
      pwr := power,
      trace := s.trace ++ [.cmd (.setTxPower power),
        .busW s.cfg.aPaLevel [paByte s.cfg power.toInt s.hp] (s.okAt 0),
        .res (if s.okAt 0 then .ok .unit else .err .spiWriteError)],
      chip := (s.recordWrite s.cfg.aPaLevel [paByte s.cfg power.toInt s.hp] (s.okAt 0)).chip }

/-- `set_sync_words` (R142): 1 to 8 words go out in one burst behind the configuration byte, for every policy; any other
count is `ConfigurationError` before any bus event (for `Off` too: D33). -/
def Obligations.SetSyncWordsWritesOneBurstOrRejectsTheCount : Prop :=
  ∀ (s : State) (policy : SyncPolicy) (words : List Byte), s.cfg.valid = true → s.pc = .idle →
    (1 ≤ words.length → words.length ≤ 8 →
      execFor (.setSyncWords policy words) 3 s = .next { s.answered 1 with
        trace := s.trace ++ [.cmd (.setSyncWords policy words),
          .busW s.cfg.aSyncConfig (syncByte policy words.length :: words) (s.okAt 0),
          .res (if s.okAt 0 then .ok .unit else .err .spiWriteError)],
        chip := (s.recordWrite s.cfg.aSyncConfig (syncByte policy words.length :: words) (s.okAt 0)).chip }) ∧
    (words.length = 0 ∨ 8 < words.length →
      execFor (.setSyncWords policy words) 2 s = .next { s with
        trace := s.trace ++ [.cmd (.setSyncWords policy words), .res (.err .configurationError)] })

/-- `set_modem_config` (R131): the preset's 8 bytes in three writes, in table order and unaltered; a failed write ends
the command, the writes before it stand; a selector outside the table is refused (U15). The order is D18. -/
def Obligations.SetModemConfigRoutesThePresetInThreeWrites : Prop :=
  ∀ (s : State) (i : BitVec 8), s.cfg.valid = true → s.pc = .idle →
    (s.cfg.presets.length ≤ i.toNat → exec (.setModemConfig i) s = .refused .presetNotInTable) ∧
    (∀ v, s.cfg.presets[i.toNat]? = some v →
      let w1 := (s.cfg.aDataModul, [v.v0, v.v1, v.v2, v.v3, v.v4])
      let w2 := (s.cfg.aRxBw, [v.v5, v.v6])
      let w3 := (s.cfg.aPacketConfig1, [v.v7])
      (s.okAt 0 = true → s.okAt 1 = true →
        execFor (.setModemConfig i) 5 s = .next { s.answered 3 with
          trace := s.trace ++ [.cmd (.setModemConfig i), .busW w1.1 w1.2 true, .busW w2.1 w2.2 true,
            .busW w3.1 w3.2 (s.okAt 2), .res (if s.okAt 2 then .ok .unit else .err .spiWriteError)],
          chip := (((s.recordWrite w1.1 w1.2 true).recordWrite w2.1 w2.2 true).recordWrite w3.1 w3.2 (s.okAt 2)).chip }) ∧
      (s.okAt 0 = true → s.okAt 1 = false →
        execFor (.setModemConfig i) 4 s = .next { s.answered 2 with
          trace := s.trace ++ [.cmd (.setModemConfig i), .busW w1.1 w1.2 true, .busW w2.1 w2.2 false,
            .res (.err .spiWriteError)],
          chip := ((s.recordWrite w1.1 w1.2 true).recordWrite w2.1 w2.2 false).chip }) ∧
      (s.okAt 0 = false →
        execFor (.setModemConfig i) 3 s = .next { s.answered 1 with
          trace := s.trace ++ [.cmd (.setModemConfig i), .busW w1.1 w1.2 false, .res (.err .spiWriteError)],
          chip := (s.recordWrite w1.1 w1.2 false).chip }))

/-- `reset` (R174): high, 100 µs, low, 5 ms; the cached mode and power are not reset; a drive that fails is
`ResetError`, and after a failed `RstLow` the line is left high and the settle delay is not issued. One delay event of
the minimum each is D23. -/
def Obligations.ResetPulsesTheLineAndKeepsTheCaches : Prop :=
  ∀ s : State, s.pc = .idle →
    (s.okAt 0 = true → s.okAt 1 = true → execFor .reset 6 s = .next { s.answered 2 with
      line := .low, chip := [],
      trace := s.trace ++ [.cmd .reset, .rstHigh true, .delay (.us 100), .rstLow true, .delay (.ms 5),
        .res (.ok .unit)] }) ∧
    (s.okAt 0 = true → s.okAt 1 = false → execFor .reset 5 s = .next { s.answered 2 with
      line := .high, chip := [],
      trace := s.trace ++ [.cmd .reset, .rstHigh true, .delay (.us 100), .rstLow false,
        .res (.err .resetError)] }) ∧
    (s.okAt 0 = false → execFor .reset 3 s = .next { s.answered 1 with
      chip := [],
      trace := s.trace ++ [.cmd .reset, .rstHigh false, .res (.err .resetError)] })

/-- `set_mode` to the cached mode (R173 a): no event of any kind, no read either. -/
def Obligations.SetModeToTheCachedModeIsNoEvent : Prop :=
  ∀ s : State, s.pc = .idle →
    execFor (.setMode s.mode) 2 s = .next { s with
      trace := s.trace ++ [.cmd (.setMode s.mode), .res (.ok .unit)] }

/-- `set_mode` to another mode (R171, R172, R173), every transition, with any number of polls that do not show
mode-ready: the test-PA writes of the table, the read-modify-write of the mode field, a delay after each unready poll
and none after the last; then, and only then, the target is cached. The order of the two test-PA writes is D18, that
the read comes before the delay is D24. -/
def Obligations.SetModeWritesTheFieldAndWaitsForModeReady : Prop :=
  ∀ (s : State) (target : Mode) (old ready : Byte) (unready : List Byte),
    s.cfg.valid = true → s.pc = .idle → target ≠ s.mode →
    let w := testPaWrites s.cfg s.pwr target
    let new := modeByte old (modeCode s.cfg target)
    (∀ k < w.length, s.okAt k = true) → s.dataAt w.length 1 = some [old] → s.okAt (w.length + 1) = true →
    (∀ (k : Nat) (h : k < unready.length), s.dataAt (w.length + 2 + k) 1 = some [unready[k]] ∧
      unready[k] &&& s.cfg.mModeReady = 0#8) →
    s.dataAt (w.length + 2 + unready.length) 1 = some [ready] → ready &&& s.cfg.mModeReady ≠ 0#8 →
    execFor (.setMode target) (w.length + 2 * unready.length + 5) s =
      .next { s.answered (w.length + unready.length + 3) with
        mode := target,
        trace := s.trace ++ ([.cmd (.setMode target)] ++ writeEvents w ++
          [.busR s.cfg.aOpMode 1 (some [old]), .busW s.cfg.aOpMode [new] true] ++
          waitEvents s.cfg.aIrq1 s.cfg.pollDelay unready ++
          [.busR s.cfg.aIrq1 1 (some [ready]), .res (.ok .unit)]),
        chip := (State.recordWrites (w ++ [(s.cfg.aOpMode, [new])]) s).chip }

/-- `set_mode` whose poll read fails after the mode write (R173, R269): the cache keeps the old mode. -/
def Obligations.FailedModeReadyPollKeepsTheOldCachedMode : Prop :=
  ∀ (s : State) (target : Mode) (old : Byte), s.cfg.valid = true → s.pc = .idle → target ≠ s.mode →
    s.pwr.toInt < 18 →
    let new := modeByte old (modeCode s.cfg target)
    s.dataAt 0 1 = some [old] → s.okAt 1 = true → s.okAt 2 = false →
    execFor (.setMode target) 5 s = .next { s.answered 3 with
      trace := s.trace ++ [.cmd (.setMode target), .busR s.cfg.aOpMode 1 (some [old]),
        .busW s.cfg.aOpMode [new] true, .busR s.cfg.aIrq1 1 none, .res (.err .spiReadError)],
      chip := (s.recordWrite s.cfg.aOpMode [new] true).chip }

/-- R172, R272: no wait has a bound. However many polls in a row do not show the wanted bit, the block is still at the
same poll, has emitted reads and delays only, and no result. All three kinds of wait, at all six places: mode-ready in
`set_mode`, twice in `send` and at the end of `init`; packet-sent in `send`; temperature running in
`read_temperature`. -/
def Obligations.NoWaitEverTimesOut : Prop :=
  ∀ (s : State) (bytes : List Byte), s.cfg.valid = true →
    (∀ (k : Nat) (h : k < bytes.length), s.dataAt k 1 = some [bytes[k]]) →
    (∀ p : Pos, s.pc = .running p →
      ((∃ target, p = .setMode target (.ready .poll)) ∨ (∃ payload, p = .send payload (.toTransmit (.ready .poll))) ∨
       (∃ payload, p = .send payload (.toStandby (.ready .poll))) ∨ p = .init (.toStandby (.ready .poll))) →
      (∀ b ∈ bytes, b &&& s.cfg.mModeReady = 0#8) →
      execFor p.command (2 * bytes.length) s = .next { s.answered bytes.length with
        trace := s.trace ++ waitEvents s.cfg.aIrq1 s.cfg.pollDelay bytes }) ∧
    (∀ payload, s.pc = .running (.send payload (.sent .poll)) →
      (∀ b ∈ bytes, b &&& s.cfg.mPacketSent = 0#8) →
      execFor (.send payload) (2 * bytes.length) s = .next { s.answered bytes.length with
        trace := s.trace ++ waitEvents s.cfg.aIrq2 s.cfg.pollDelay bytes }) ∧
    (s.pc = .running (.readTemperature (.running .poll)) →
      (∀ b ∈ bytes, b &&& s.cfg.mTempRunning ≠ 0#8) →
      execFor .readTemperature (2 * bytes.length) s = .next { s.answered bytes.length with
        trace := s.trace ++ waitEvents s.cfg.aTemp1 s.cfg.pollDelay bytes })

/-- `init` from a cached Standby (R175, C1): the pulse, the version check, twelve writes in the listed order (D18), and no
mode write; the cached power is 13. -/
def Obligations.InitFromStandbyProgramsTheChip : Prop :=
  ∀ (s : State) (v : Preset) (b2 b1 b0 : Byte), s.cfg.valid = true → s.pc = .idle → s.mode = .standby →
    s.cfg.presets[s.cfg.initPreset.toNat]? = some v → frfBytes s.cfg s.cfg.initFreqMhz = some [b2, b1, b0] →
    let w : List (Addr × List Byte) :=
      [(s.cfg.aFifoThresh, [s.cfg.initFifoThresh]), (s.cfg.aTestDagc, [s.cfg.initDagc]),
       (s.cfg.aLna, [s.cfg.initLna]),
       (s.cfg.aSyncConfig, syncByte s.cfg.initSyncPolicy s.cfg.initSyncWords.length :: s.cfg.initSyncWords),
       (s.cfg.aTestPa1, [s.cfg.testPa1Normal]), (s.cfg.aTestPa2, [s.cfg.testPa2Normal]),
       (s.cfg.aDataModul, [v.v0, v.v1, v.v2, v.v3, v.v4]), (s.cfg.aRxBw, [v.v5, v.v6]),
       (s.cfg.aPacketConfig1, [v.v7]),
       (s.cfg.aPreamble, [s.cfg.initPreamble.extractLsb' 8 8, s.cfg.initPreamble.extractLsb' 0 8]),
       (s.cfg.aPaLevel, [paByte s.cfg 13 s.hp]), (s.cfg.aFrf, [b2, b1, b0])]
    s.okAt 0 = true → s.okAt 1 = true → s.dataAt 2 1 = some [s.cfg.versionByte] →
    (∀ k < 12, s.okAt (3 + k) = true) →
    execFor .init 19 s = .next { s.answered 15 with
      pwr := 13, line := .low,
      trace := s.trace ++ ([.cmd .init, .rstHigh true, .delay (.us 100), .rstLow true, .delay (.ms 5),
        .busR s.cfg.aVersion 1 (some [s.cfg.versionByte])] ++ writeEvents w ++ [.res (.ok .unit)]),
      chip := (State.recordWrites w { s with chip := [] }).chip }

/-- `init` step 12 on a block whose cache is not Standby (R175 b, C1) is a real transition, with no test-PA write; the
cache says the old mode until mode-ready is seen. -/
def Obligations.InitEndsWithARealTransitionFromAnotherMode : Prop :=
  ∀ (s : State) (bytes : List Byte) (old ready : Byte), s.cfg.valid = true →
    s.pc = .running (.init .frequency) → s.mode ≠ .standby → frfBytes s.cfg s.cfg.initFreqMhz = some bytes →
    let new := modeByte old (modeCode s.cfg .standby)
    s.okAt 0 = true → s.dataAt 1 1 = some [old] → s.okAt 2 = true → s.dataAt 3 1 = some [ready] →
    ready &&& s.cfg.mModeReady ≠ 0#8 →
    execFor .init 3 s = .next { s.answered 3 with
      pc := .running (.init (.toStandby (.ready .poll))),
      trace := s.trace ++ [.busW s.cfg.aFrf bytes true, .busR s.cfg.aOpMode 1 (some [old]),
        .busW s.cfg.aOpMode [new] true],
      chip := (State.recordWrites [(s.cfg.aFrf, bytes), (s.cfg.aOpMode, [new])] s).chip } ∧
    execFor .init 5 s = .next { s.answered 4 with
      mode := .standby, pc := .idle,
      trace := s.trace ++ [.busW s.cfg.aFrf bytes true, .busR s.cfg.aOpMode 1 (some [old]),
        .busW s.cfg.aOpMode [new] true, .busR s.cfg.aIrq1 1 (some [ready]), .res (.ok .unit)],
      chip := (State.recordWrites [(s.cfg.aFrf, bytes), (s.cfg.aOpMode, [new])] s).chip }

/-- `init` on a version byte that is not the revision byte (R175 c, R221): `SpiReadError` (D16), nothing written, no
state register changed. -/
def Obligations.InitStopsAtAVersionMismatch : Prop :=
  ∀ (s : State) (v : Byte), s.cfg.valid = true → s.pc = .idle → s.okAt 0 = true → s.okAt 1 = true →
    s.dataAt 2 1 = some [v] → v ≠ s.cfg.versionByte →
    execFor .init 7 s = .next { s.answered 3 with
      line := .low, chip := [],
      trace := s.trace ++ [.cmd .init, .rstHigh true, .delay (.us 100), .rstLow true, .delay (.ms 5),
        .busR s.cfg.aVersion 1 (some [v]), .res (.err .spiReadError)] }

/-- `send` of more than 60 bytes (R191): `MessageTooLarge` and no transport write, whatever the transport would
answer. -/
def Obligations.OversizeSendPerformsNoTransportWrites : Prop :=
  ∀ (s : State) (payload : List Byte), s.pc = .idle → 60 < payload.length →
    execFor (.send payload) 2 s = .next { s with
      trace := s.trace ++ [.cmd (.send payload), .res (.err .messageTooLarge)] }

/-- `send` from a mode other than Transmit (R191, R274), each wait over at its first poll: the frame in one FIFO burst,
the transition into Transmit with its test-PA writes, packet-sent, the transition to Standby without any. -/
def Obligations.SendWritesTheFrameAndReturnsToStandby : Prop :=
  ∀ (s : State) (payload : List Byte) (old1 ready1 sent old2 ready2 : Byte),
    s.cfg.valid = true → s.pc = .idle → payload.length ≤ 60 → s.mode ≠ .transmit →
    let w := testPaWrites s.cfg s.pwr .transmit
    let n := w.length
    let new1 := modeByte old1 (modeCode s.cfg .transmit)
    let new2 := modeByte old2 (modeCode s.cfg .standby)
    s.okAt 0 = true → (∀ k < n, s.okAt (1 + k) = true) →
    s.dataAt (n + 1) 1 = some [old1] → s.okAt (n + 2) = true → s.dataAt (n + 3) 1 = some [ready1] →
    s.dataAt (n + 4) 1 = some [sent] →
    s.dataAt (n + 5) 1 = some [old2] → s.okAt (n + 6) = true → s.dataAt (n + 7) 1 = some [ready2] →
    ready1 &&& s.cfg.mModeReady ≠ 0#8 → sent &&& s.cfg.mPacketSent ≠ 0#8 → ready2 &&& s.cfg.mModeReady ≠ 0#8 →
    execFor (.send payload) (n + 10) s = .next { s.answered (n + 8) with
      mode := .standby,
      trace := s.trace ++ ([.cmd (.send payload), .busW s.cfg.aFifo (frame payload) true] ++ writeEvents w ++
        [.busR s.cfg.aOpMode 1 (some [old1]), .busW s.cfg.aOpMode [new1] true,
         .busR s.cfg.aIrq1 1 (some [ready1]), .busR s.cfg.aIrq2 1 (some [sent]),
         .busR s.cfg.aOpMode 1 (some [old2]), .busW s.cfg.aOpMode [new2] true,
         .busR s.cfg.aIrq1 1 (some [ready2]), .res (.ok .unit)]),
      chip := (State.recordWrites (w ++ [(s.cfg.aOpMode, [new1]), (s.cfg.aOpMode, [new2])]) s).chip }

/-- `send` from Transmit (R191 b): the first `set_mode` is no event, the block goes straight to packet-sent. -/
def Obligations.SendFromTransmitSkipsTheFirstTransition : Prop :=
  ∀ (s : State) (payload : List Byte) (sent old ready : Byte),
    s.cfg.valid = true → s.pc = .idle → payload.length ≤ 60 → s.mode = .transmit →
    let new := modeByte old (modeCode s.cfg .standby)
    s.okAt 0 = true → s.dataAt 1 1 = some [sent] → s.dataAt 2 1 = some [old] → s.okAt 3 = true →
    s.dataAt 4 1 = some [ready] → sent &&& s.cfg.mPacketSent ≠ 0#8 → ready &&& s.cfg.mModeReady ≠ 0#8 →
    execFor (.send payload) 7 s = .next { s.answered 5 with
      mode := .standby,
      trace := s.trace ++ [.cmd (.send payload), .busW s.cfg.aFifo (frame payload) true,
        .busR s.cfg.aIrq2 1 (some [sent]), .busR s.cfg.aOpMode 1 (some [old]),
        .busW s.cfg.aOpMode [new] true, .busR s.cfg.aIrq1 1 (some [ready]), .res (.ok .unit)],
      chip := (s.recordWrite s.cfg.aOpMode [new] true).chip }

/-- `is_message_available` (R192): `InvalidMode` and no event where the cached mode is not Receive; else one read and
the payload-ready bit, or `SpiReadError`. -/
def Obligations.IsMessageAvailableReadsOneBitInReceiveOnly : Prop :=
  ∀ s : State, s.cfg.valid = true → s.pc = .idle →
    (s.mode ≠ .receive → execFor .isMessageAvailable 2 s = .next { s with
      trace := s.trace ++ [.cmd .isMessageAvailable, .res (.err .invalidMode)] }) ∧
    (s.mode = .receive →
      (∀ b, s.dataAt 0 1 = some [b] → execFor .isMessageAvailable 3 s = .next { s.answered 1 with
        trace := s.trace ++ [.cmd .isMessageAvailable, .busR s.cfg.aIrq2 1 (some [b]),
          .res (.ok (.flag (decide (b &&& s.cfg.mPayloadReady ≠ 0#8))))] }) ∧
      (s.dataAt 0 1 = none → execFor .isMessageAvailable 3 s = .next { s.answered 1 with
        trace := s.trace ++ [.cmd .isMessageAvailable, .busR s.cfg.aIrq2 1 none,
          .res (.err .spiReadError)] }))

/-- `receive` on a length byte from 4 to the capacity (R193): header and payload are read, the header is discarded
unchecked, the mode is not tested; an empty payload is a burst of zero bytes where such a burst is issued (R64, D19), no
event where it is not. Count and bytes as one list is D31. -/
def Obligations.ReceiveReturnsThePayloadBytes : Prop :=
  ∀ (s : State) (capacity : Nat) (len : Byte) (header : List Byte), s.cfg.valid = true → s.pc = .idle →
    s.dataAt 0 1 = some [len] → 4 ≤ len.toNat → len.toNat ≤ capacity → s.dataAt 1 4 = some header →
    (∀ data, (4 < len.toNat ∨ s.cfg.zeroLenBurstIssued = true) → s.dataAt 2 (len.toNat - 4) = some data →
      execFor (.receive capacity) 5 s = .next { s.answered 3 with
        trace := s.trace ++ [.cmd (.receive capacity), .busR s.cfg.aFifo 1 (some [len]),
          .busR s.cfg.aFifo 4 (some header), .busR s.cfg.aFifo (len.toNat - 4) (some data),
          .res (.ok (.bytes data))] }) ∧
    (len.toNat = 4 → s.cfg.zeroLenBurstIssued = false →
      execFor (.receive capacity) 4 s = .next { s.answered 2 with
        trace := s.trace ++ [.cmd (.receive capacity), .busR s.cfg.aFifo 1 (some [len]),
          .busR s.cfg.aFifo 4 (some header), .res (.ok (.bytes []))] })

/-- `receive` on a length byte it does not take (R193, C8): above the capacity `MessageTooLarge` after one FIFO read, the
whole length byte being compared; else below 4 the model fault (U2), after the read. -/
def Obligations.ReceiveRejectsAnUnusableLengthByte : Prop :=
  ∀ (s : State) (capacity : Nat) (len : Byte), s.cfg.valid = true → s.pc = .idle → s.dataAt 0 1 = some [len] →
    (capacity < len.toNat → execFor (.receive capacity) 3 s = .next { s.answered 1 with
      trace := s.trace ++ [.cmd (.receive capacity), .busR s.cfg.aFifo 1 (some [len]),
        .res (.err .messageTooLarge)] }) ∧
    (len.toNat ≤ capacity → len.toNat < 4 → execFor (.receive capacity) 3 s = .fault .lengthUnderflow)

/-- The document's round trip (R190, S12): a `receive` whose three reads return a peer's frame gives its payload byte
for byte, for every payload `send` accepts. -/
def Obligations.ReceiveReconstructsASentPayload : Prop :=
  ∀ (s : State) (payload : List Byte) (capacity : Nat), s.cfg.valid = true → s.pc = .idle →
    payload.length ≤ 60 → payload.length + 4 ≤ capacity → s.cfg.zeroLenBurstIssued = true →
    s.dataAt 0 1 = some ((frame payload).take 1) →
    s.dataAt 1 4 = some (((frame payload).drop 1).take 4) →
    s.dataAt 2 payload.length = some ((frame payload).drop 5) →
    ∃ t, execFor (.receive capacity) 5 s = .next t ∧ t.pc = .idle ∧ t.mode = s.mode ∧
      t.trace.getLast? = some (.res (.ok (.bytes payload)))

/-- `read_temperature` (R194), with any number of polls that show it running: the start bit as a whole byte, the wait
until the running bit is clear, the raw byte, and 166 minus it. The whole byte is D25, read before delay D24. -/
def Obligations.ReadTemperatureWaitsAndSubtractsFrom166 : Prop :=
  ∀ (s : State) (running : List Byte) (clear raw : Byte), s.cfg.valid = true → s.pc = .idle → s.okAt 0 = true →
    (∀ (k : Nat) (h : k < running.length), s.dataAt (1 + k) 1 = some [running[k]] ∧
      running[k] &&& s.cfg.mTempRunning ≠ 0#8) →
    s.dataAt (1 + running.length) 1 = some [clear] → clear &&& s.cfg.mTempRunning = 0#8 →
    s.dataAt (2 + running.length) 1 = some [raw] →
    execFor .readTemperature (2 * running.length + 5) s = .next { s.answered (running.length + 3) with
      trace := s.trace ++ ([.cmd .readTemperature, .busW s.cfg.aTemp1 [s.cfg.mTempStart] true] ++
        waitEvents s.cfg.aTemp1 s.cfg.pollDelay running ++
        [.busR s.cfg.aTemp1 1 (some [clear]), .busR s.cfg.aTemp2 1 (some [raw]),
         .res (.ok (.celsius (166 - raw.toNat)))]),
      chip := (s.recordWrite s.cfg.aTemp1 [s.cfg.mTempStart] true).chip }

/-- `rssi` (R195): one read; the result lane is the count of half decibels, which is the raw byte (D21). -/
def Obligations.RssiReturnsTheRawHalfDecibels : Prop :=
  ∀ s : State, s.cfg.valid = true → s.pc = .idle →
    (∀ raw, s.dataAt 0 1 = some [raw] → execFor .rssi 3 s = .next { s.answered 1 with
      trace := s.trace ++ [.cmd .rssi, .busR s.cfg.aRssi 1 (some [raw]),
        .res (.ok (.halfDecibels raw))] }) ∧
    (s.dataAt 0 1 = none → execFor .rssi 3 s = .next { s.answered 1 with
      trace := s.trace ++ [.cmd .rssi, .busR s.cfg.aRssi 1 none, .res (.err .spiReadError)] })

/-- `read_all_registers` (R196): one burst over the core bank, four single reads, and 84 pairs in that order (D20); a
failed read gives no partial list. -/
def Obligations.ReadAllRegistersReturnsEightyFourPairs : Prop :=
  ∀ (s : State) (core : List Byte) (a b c d : Byte), s.pc = .idle → s.dataAt 0 80 = some core →
    s.dataAt 1 1 = some [a] →
    (s.dataAt 2 1 = some [b] → s.dataAt 3 1 = some [c] → s.dataAt 4 1 = some [d] →
      ∃ l : List (Addr × Byte),
        l.map (fun x => x.1.toNat) = List.range 80 ++ [0x58, 0x5A, 0x5C, 0x6F] ∧
        l.map Prod.snd = core ++ [a, b, c, d] ∧
        execFor .readAllRegisters 7 s = .next { s.answered 5 with
          trace := s.trace ++ [.cmd .readAllRegisters, .busR 0x00 80 (some core), .busR 0x58 1 (some [a]),
            .busR 0x5A 1 (some [b]), .busR 0x5C 1 (some [c]), .busR 0x6F 1 (some [d]),
            .res (.ok (.registers l))] }) ∧
    (s.dataAt 2 1 = none → execFor .readAllRegisters 5 s = .next { s.answered 3 with
      trace := s.trace ++ [.cmd .readAllRegisters, .busR 0x00 80 (some core), .busR 0x58 1 (some [a]),
        .busR 0x5A 1 none, .res (.err .spiReadError)] })
end

