-- ==== Sys2Proof/Laws/State.lean ====
section
/-! SUPPORT. The fields of the state after each named update, one lemma a field, so that no later proof unfolds a
record update. -/

namespace Sys2Proof.Machine

/-! ### `draw` -/

@[simp] theorem State.draw_mode (s : State) : s.draw.mode = s.mode := rfl
@[simp] theorem State.draw_pwr (s : State) : s.draw.pwr = s.pwr := rfl
@[simp] theorem State.draw_hp (s : State) : s.draw.hp = s.hp := rfl
@[simp] theorem State.draw_pc (s : State) : s.draw.pc = s.pc := rfl
@[simp] theorem State.draw_line (s : State) : s.draw.line = s.line := rfl
@[simp] theorem State.draw_cfg (s : State) : s.draw.cfg = s.cfg := rfl
@[simp] theorem State.draw_port (s : State) : s.draw.port = s.port := rfl
@[simp] theorem State.draw_answers (s : State) : s.draw.answers = s.answers.drop 1 := rfl
@[simp] theorem State.draw_drawn (s : State) : s.draw.drawn = s.drawn + 1 := rfl
@[simp] theorem State.draw_trace (s : State) : s.draw.trace = s.trace := rfl
@[simp] theorem State.draw_chip (s : State) : s.draw.chip = s.chip := rfl

/-! ### `emit` -/

@[simp] theorem State.emit_mode (e : Event) (s : State) : (s.emit e).mode = s.mode := rfl
@[simp] theorem State.emit_pwr (e : Event) (s : State) : (s.emit e).pwr = s.pwr := rfl
@[simp] theorem State.emit_hp (e : Event) (s : State) : (s.emit e).hp = s.hp := rfl
@[simp] theorem State.emit_pc (e : Event) (s : State) : (s.emit e).pc = s.pc := rfl
@[simp] theorem State.emit_line (e : Event) (s : State) : (s.emit e).line = s.line := rfl
@[simp] theorem State.emit_cfg (e : Event) (s : State) : (s.emit e).cfg = s.cfg := rfl
@[simp] theorem State.emit_port (e : Event) (s : State) : (s.emit e).port = s.port := rfl
@[simp] theorem State.emit_answers (e : Event) (s : State) : (s.emit e).answers = s.answers := rfl
@[simp] theorem State.emit_drawn (e : Event) (s : State) : (s.emit e).drawn = s.drawn := rfl
@[simp] theorem State.emit_trace (e : Event) (s : State) : (s.emit e).trace = s.trace ++ [e] := rfl
@[simp] theorem State.emit_chip (e : Event) (s : State) : (s.emit e).chip = s.chip := rfl

/-! ### `goto` -/

@[simp] theorem State.goto_mode (p : Pos) (s : State) : (s.goto p).mode = s.mode := rfl
@[simp] theorem State.goto_pwr (p : Pos) (s : State) : (s.goto p).pwr = s.pwr := rfl
@[simp] theorem State.goto_hp (p : Pos) (s : State) : (s.goto p).hp = s.hp := rfl
@[simp] theorem State.goto_pc (p : Pos) (s : State) : (s.goto p).pc = .running p := rfl
@[simp] theorem State.goto_line (p : Pos) (s : State) : (s.goto p).line = s.line := rfl
@[simp] theorem State.goto_cfg (p : Pos) (s : State) : (s.goto p).cfg = s.cfg := rfl
@[simp] theorem State.goto_port (p : Pos) (s : State) : (s.goto p).port = s.port := rfl
@[simp] theorem State.goto_answers (p : Pos) (s : State) : (s.goto p).answers = s.answers := rfl
@[simp] theorem State.goto_drawn (p : Pos) (s : State) : (s.goto p).drawn = s.drawn := rfl
@[simp] theorem State.goto_trace (p : Pos) (s : State) : (s.goto p).trace = s.trace := rfl
@[simp] theorem State.goto_chip (p : Pos) (s : State) : (s.goto p).chip = s.chip := rfl

/-! ### `toIdle` -/

@[simp] theorem State.toIdle_mode (s : State) : s.toIdle.mode = s.mode := rfl
@[simp] theorem State.toIdle_pwr (s : State) : s.toIdle.pwr = s.pwr := rfl
@[simp] theorem State.toIdle_hp (s : State) : s.toIdle.hp = s.hp := rfl
@[simp] theorem State.toIdle_pc (s : State) : s.toIdle.pc = .idle := rfl
@[simp] theorem State.toIdle_line (s : State) : s.toIdle.line = s.line := rfl
@[simp] theorem State.toIdle_cfg (s : State) : s.toIdle.cfg = s.cfg := rfl
@[simp] theorem State.toIdle_port (s : State) : s.toIdle.port = s.port := rfl
@[simp] theorem State.toIdle_answers (s : State) : s.toIdle.answers = s.answers := rfl
@[simp] theorem State.toIdle_drawn (s : State) : s.toIdle.drawn = s.drawn := rfl
@[simp] theorem State.toIdle_trace (s : State) : s.toIdle.trace = s.trace := rfl
@[simp] theorem State.toIdle_chip (s : State) : s.toIdle.chip = s.chip := rfl

/-! ### `cacheMode` -/

@[simp] theorem State.cacheMode_mode (m : Mode) (s : State) : (s.cacheMode m).mode = m := rfl
@[simp] theorem State.cacheMode_pwr (m : Mode) (s : State) : (s.cacheMode m).pwr = s.pwr := rfl
@[simp] theorem State.cacheMode_hp (m : Mode) (s : State) : (s.cacheMode m).hp = s.hp := rfl
@[simp] theorem State.cacheMode_pc (m : Mode) (s : State) : (s.cacheMode m).pc = s.pc := rfl
@[simp] theorem State.cacheMode_line (m : Mode) (s : State) : (s.cacheMode m).line = s.line := rfl
@[simp] theorem State.cacheMode_cfg (m : Mode) (s : State) : (s.cacheMode m).cfg = s.cfg := rfl
@[simp] theorem State.cacheMode_port (m : Mode) (s : State) : (s.cacheMode m).port = s.port := rfl
@[simp] theorem State.cacheMode_answers (m : Mode) (s : State) : (s.cacheMode m).answers = s.answers := rfl
@[simp] theorem State.cacheMode_drawn (m : Mode) (s : State) : (s.cacheMode m).drawn = s.drawn := rfl
@[simp] theorem State.cacheMode_trace (m : Mode) (s : State) : (s.cacheMode m).trace = s.trace := rfl
@[simp] theorem State.cacheMode_chip (m : Mode) (s : State) : (s.cacheMode m).chip = s.chip := rfl

/-! ### `cachePower` -/

@[simp] theorem State.cachePower_mode (q : BitVec 8) (s : State) : (s.cachePower q).mode = s.mode := rfl
@[simp] theorem State.cachePower_pwr (q : BitVec 8) (s : State) : (s.cachePower q).pwr = q := rfl
@[simp] theorem State.cachePower_hp (q : BitVec 8) (s : State) : (s.cachePower q).hp = s.hp := rfl
@[simp] theorem State.cachePower_pc (q : BitVec 8) (s : State) : (s.cachePower q).pc = s.pc := rfl
@[simp] theorem State.cachePower_line (q : BitVec 8) (s : State) : (s.cachePower q).line = s.line := rfl
@[simp] theorem State.cachePower_cfg (q : BitVec 8) (s : State) : (s.cachePower q).cfg = s.cfg := rfl
@[simp] theorem State.cachePower_port (q : BitVec 8) (s : State) : (s.cachePower q).port = s.port := rfl
@[simp] theorem State.cachePower_answers (q : BitVec 8) (s : State) : (s.cachePower q).answers = s.answers := rfl
@[simp] theorem State.cachePower_drawn (q : BitVec 8) (s : State) : (s.cachePower q).drawn = s.drawn := rfl
@[simp] theorem State.cachePower_trace (q : BitVec 8) (s : State) : (s.cachePower q).trace = s.trace := rfl
@[simp] theorem State.cachePower_chip (q : BitVec 8) (s : State) : (s.cachePower q).chip = s.chip := rfl

/-! ### `forgetChip` -/

@[simp] theorem State.forgetChip_mode (s : State) : s.forgetChip.mode = s.mode := rfl
@[simp] theorem State.forgetChip_pwr (s : State) : s.forgetChip.pwr = s.pwr := rfl
@[simp] theorem State.forgetChip_hp (s : State) : s.forgetChip.hp = s.hp := rfl
@[simp] theorem State.forgetChip_pc (s : State) : s.forgetChip.pc = s.pc := rfl
@[simp] theorem State.forgetChip_line (s : State) : s.forgetChip.line = s.line := rfl
@[simp] theorem State.forgetChip_cfg (s : State) : s.forgetChip.cfg = s.cfg := rfl
@[simp] theorem State.forgetChip_port (s : State) : s.forgetChip.port = s.port := rfl
@[simp] theorem State.forgetChip_answers (s : State) : s.forgetChip.answers = s.answers := rfl
@[simp] theorem State.forgetChip_drawn (s : State) : s.forgetChip.drawn = s.drawn := rfl
@[simp] theorem State.forgetChip_trace (s : State) : s.forgetChip.trace = s.trace := rfl
@[simp] theorem State.forgetChip_chip (s : State) : s.forgetChip.chip = [] := rfl

/-! ### `finishOk` -/

@[simp] theorem State.finishOk_mode (c : Instr) (v : Value) (s : State) : (s.finishOk c v).mode = s.mode := rfl
@[simp] theorem State.finishOk_pwr (c : Instr) (v : Value) (s : State) : (s.finishOk c v).pwr = s.pwr := rfl
@[simp] theorem State.finishOk_hp (c : Instr) (v : Value) (s : State) : (s.finishOk c v).hp = s.hp := rfl
@[simp] theorem State.finishOk_pc (c : Instr) (v : Value) (s : State) : (s.finishOk c v).pc = .running (.finish c (.ok v)) := rfl
@[simp] theorem State.finishOk_line (c : Instr) (v : Value) (s : State) : (s.finishOk c v).line = s.line := rfl
@[simp] theorem State.finishOk_cfg (c : Instr) (v : Value) (s : State) : (s.finishOk c v).cfg = s.cfg := rfl
@[simp] theorem State.finishOk_port (c : Instr) (v : Value) (s : State) : (s.finishOk c v).port = s.port := rfl
@[simp] theorem State.finishOk_answers (c : Instr) (v : Value) (s : State) : (s.finishOk c v).answers = s.answers := rfl
@[simp] theorem State.finishOk_drawn (c : Instr) (v : Value) (s : State) : (s.finishOk c v).drawn = s.drawn := rfl
@[simp] theorem State.finishOk_trace (c : Instr) (v : Value) (s : State) : (s.finishOk c v).trace = s.trace := rfl
@[simp] theorem State.finishOk_chip (c : Instr) (v : Value) (s : State) : (s.finishOk c v).chip = s.chip := rfl

/-! ### `raise` -/

@[simp] theorem State.raise_mode (c : Instr) (e : ErrKind) (s : State) : (s.raise c e).mode = s.mode := rfl
@[simp] theorem State.raise_pwr (c : Instr) (e : ErrKind) (s : State) : (s.raise c e).pwr = s.pwr := rfl
@[simp] theorem State.raise_hp (c : Instr) (e : ErrKind) (s : State) : (s.raise c e).hp = s.hp := rfl
@[simp] theorem State.raise_pc (c : Instr) (e : ErrKind) (s : State) : (s.raise c e).pc = .running (.finish c (.err e)) := rfl
@[simp] theorem State.raise_line (c : Instr) (e : ErrKind) (s : State) : (s.raise c e).line = s.line := rfl
@[simp] theorem State.raise_cfg (c : Instr) (e : ErrKind) (s : State) : (s.raise c e).cfg = s.cfg := rfl
@[simp] theorem State.raise_port (c : Instr) (e : ErrKind) (s : State) : (s.raise c e).port = s.port := rfl
@[simp] theorem State.raise_answers (c : Instr) (e : ErrKind) (s : State) : (s.raise c e).answers = s.answers := rfl
@[simp] theorem State.raise_drawn (c : Instr) (e : ErrKind) (s : State) : (s.raise c e).drawn = s.drawn := rfl
@[simp] theorem State.raise_trace (c : Instr) (e : ErrKind) (s : State) : (s.raise c e).trace = s.trace := rfl
@[simp] theorem State.raise_chip (c : Instr) (e : ErrKind) (s : State) : (s.raise c e).chip = s.chip := rfl

/-! ### `answered` -/

@[simp] theorem State.answered_mode (n : Nat) (s : State) : (s.answered n).mode = s.mode := rfl
@[simp] theorem State.answered_pwr (n : Nat) (s : State) : (s.answered n).pwr = s.pwr := rfl
@[simp] theorem State.answered_hp (n : Nat) (s : State) : (s.answered n).hp = s.hp := rfl
@[simp] theorem State.answered_pc (n : Nat) (s : State) : (s.answered n).pc = s.pc := rfl
@[simp] theorem State.answered_line (n : Nat) (s : State) : (s.answered n).line = s.line := rfl
@[simp] theorem State.answered_cfg (n : Nat) (s : State) : (s.answered n).cfg = s.cfg := rfl
@[simp] theorem State.answered_port (n : Nat) (s : State) : (s.answered n).port = s.port := rfl
@[simp] theorem State.answered_answers (n : Nat) (s : State) : (s.answered n).answers = s.answers.drop n := rfl
@[simp] theorem State.answered_drawn (n : Nat) (s : State) : (s.answered n).drawn = s.drawn + n := rfl
@[simp] theorem State.answered_trace (n : Nat) (s : State) : (s.answered n).trace = s.trace := rfl
@[simp] theorem State.answered_chip (n : Nat) (s : State) : (s.answered n).chip = s.chip := rfl

/-! ### `driveLine` -/

@[simp] theorem State.driveLine_mode (level : LineLevel) (b : Bool) (s : State) : (s.driveLine level b).mode = s.mode := by
  unfold State.driveLine; split <;> rfl

@[simp] theorem State.driveLine_pwr (level : LineLevel) (b : Bool) (s : State) : (s.driveLine level b).pwr = s.pwr := by
  unfold State.driveLine; split <;> rfl

@[simp] theorem State.driveLine_hp (level : LineLevel) (b : Bool) (s : State) : (s.driveLine level b).hp = s.hp := by
  unfold State.driveLine; split <;> rfl

@[simp] theorem State.driveLine_pc (level : LineLevel) (b : Bool) (s : State) : (s.driveLine level b).pc = s.pc := by
  unfold State.driveLine; split <;> rfl

@[simp] theorem State.driveLine_cfg (level : LineLevel) (b : Bool) (s : State) : (s.driveLine level b).cfg = s.cfg := by
  unfold State.driveLine; split <;> rfl

@[simp] theorem State.driveLine_port (level : LineLevel) (b : Bool) (s : State) : (s.driveLine level b).port = s.port := by
  unfold State.driveLine; split <;> rfl

@[simp] theorem State.driveLine_answers (level : LineLevel) (b : Bool) (s : State) : (s.driveLine level b).answers = s.answers := by
  unfold State.driveLine; split <;> rfl

@[simp] theorem State.driveLine_drawn (level : LineLevel) (b : Bool) (s : State) : (s.driveLine level b).drawn = s.drawn := by
  unfold State.driveLine; split <;> rfl

@[simp] theorem State.driveLine_trace (level : LineLevel) (b : Bool) (s : State) : (s.driveLine level b).trace = s.trace := by
  unfold State.driveLine; split <;> rfl

@[simp] theorem State.driveLine_chip (level : LineLevel) (b : Bool) (s : State) : (s.driveLine level b).chip = s.chip := by
  unfold State.driveLine; split <;> rfl

/-! ### `recordWrite` -/

@[simp] theorem State.recordWrite_mode (a : Addr) (bytes : List Byte) (b : Bool) (s : State) : (s.recordWrite a bytes b).mode = s.mode := by
  unfold State.recordWrite; split
  · rfl
  · split <;> rfl

@[simp] theorem State.recordWrite_pwr (a : Addr) (bytes : List Byte) (b : Bool) (s : State) : (s.recordWrite a bytes b).pwr = s.pwr := by
  unfold State.recordWrite; split
  · rfl
  · split <;> rfl

@[simp] theorem State.recordWrite_hp (a : Addr) (bytes : List Byte) (b : Bool) (s : State) : (s.recordWrite a bytes b).hp = s.hp := by
  unfold State.recordWrite; split
  · rfl
  · split <;> rfl

@[simp] theorem State.recordWrite_pc (a : Addr) (bytes : List Byte) (b : Bool) (s : State) : (s.recordWrite a bytes b).pc = s.pc := by
  unfold State.recordWrite; split
  · rfl
  · split <;> rfl

@[simp] theorem State.recordWrite_line (a : Addr) (bytes : List Byte) (b : Bool) (s : State) : (s.recordWrite a bytes b).line = s.line := by
  unfold State.recordWrite; split
  · rfl
  · split <;> rfl

@[simp] theorem State.recordWrite_cfg (a : Addr) (bytes : List Byte) (b : Bool) (s : State) : (s.recordWrite a bytes b).cfg = s.cfg := by
  unfold State.recordWrite; split
  · rfl
  · split <;> rfl

@[simp] theorem State.recordWrite_port (a : Addr) (bytes : List Byte) (b : Bool) (s : State) : (s.recordWrite a bytes b).port = s.port := by
  unfold State.recordWrite; split
  · rfl
  · split <;> rfl

@[simp] theorem State.recordWrite_answers (a : Addr) (bytes : List Byte) (b : Bool) (s : State) : (s.recordWrite a bytes b).answers = s.answers := by
  unfold State.recordWrite; split
  · rfl
  · split <;> rfl

@[simp] theorem State.recordWrite_drawn (a : Addr) (bytes : List Byte) (b : Bool) (s : State) : (s.recordWrite a bytes b).drawn = s.drawn := by
  unfold State.recordWrite; split
  · rfl
  · split <;> rfl

@[simp] theorem State.recordWrite_trace (a : Addr) (bytes : List Byte) (b : Bool) (s : State) : (s.recordWrite a bytes b).trace = s.trace := by
  unfold State.recordWrite; split
  · rfl
  · split <;> rfl

/-- The line after a drive. -/
theorem State.driveLine_line (level : LineLevel) (b : Bool) (s : State) :
    (s.driveLine level b).line = if b then level else s.line := by
  unfold State.driveLine; split <;> rfl

/-- The record after a write transaction. -/
theorem State.recordWrite_chip (a : Addr) (bytes : List Byte) (b : Bool) (s : State) :
    (s.recordWrite a bytes b).chip =
      if a = s.cfg.aFifo then s.chip
      else if b then Memory.storeBurst a.toNat bytes s.chip
      else Memory.forgetBurst a.toNat bytes.length s.chip := by
  unfold State.recordWrite; split
  · rfl
  · split <;> rfl

/-! ### `afterWrite` -/

@[simp] theorem State.afterWrite_mode (a : Addr) (bytes : List Byte) (s : State) :
    (s.afterWrite a bytes).mode = s.mode := by
  simp [State.afterWrite]

@[simp] theorem State.afterWrite_pwr (a : Addr) (bytes : List Byte) (s : State) :
    (s.afterWrite a bytes).pwr = s.pwr := by
  simp [State.afterWrite]

@[simp] theorem State.afterWrite_hp (a : Addr) (bytes : List Byte) (s : State) :
    (s.afterWrite a bytes).hp = s.hp := by
  simp [State.afterWrite]

@[simp] theorem State.afterWrite_pc (a : Addr) (bytes : List Byte) (s : State) :
    (s.afterWrite a bytes).pc = s.pc := by
  simp [State.afterWrite]

@[simp] theorem State.afterWrite_line (a : Addr) (bytes : List Byte) (s : State) :
    (s.afterWrite a bytes).line = s.line := by
  simp [State.afterWrite]

@[simp] theorem State.afterWrite_cfg (a : Addr) (bytes : List Byte) (s : State) :
    (s.afterWrite a bytes).cfg = s.cfg := by
  simp [State.afterWrite]

@[simp] theorem State.afterWrite_port (a : Addr) (bytes : List Byte) (s : State) :
    (s.afterWrite a bytes).port = s.port := by
  simp [State.afterWrite]

@[simp] theorem State.afterWrite_answers (a : Addr) (bytes : List Byte) (s : State) :
    (s.afterWrite a bytes).answers = s.answers.drop 1 := by
  simp [State.afterWrite]

@[simp] theorem State.afterWrite_drawn (a : Addr) (bytes : List Byte) (s : State) :
    (s.afterWrite a bytes).drawn = s.drawn + 1 := by
  simp [State.afterWrite]

@[simp] theorem State.afterWrite_trace (a : Addr) (bytes : List Byte) (s : State) :
    (s.afterWrite a bytes).trace = s.trace ++ [.busW a bytes (s.okAt 0)] := by
  simp [State.afterWrite]

@[simp] theorem State.afterWrite_chip (a : Addr) (bytes : List Byte) (s : State) :
    (s.afterWrite a bytes).chip = (s.recordWrite a bytes (s.okAt 0)).chip := by
  rw [State.afterWrite, State.recordWrite_chip, State.recordWrite_chip]; rfl

/-! ### `afterRead` -/

@[simp] theorem State.afterRead_mode (a : Addr) (n : Nat) (s : State) :
    (s.afterRead a n).mode = s.mode := by
  simp [State.afterRead]

@[simp] theorem State.afterRead_pwr (a : Addr) (n : Nat) (s : State) :
    (s.afterRead a n).pwr = s.pwr := by
  simp [State.afterRead]

@[simp] theorem State.afterRead_hp (a : Addr) (n : Nat) (s : State) :
    (s.afterRead a n).hp = s.hp := by
  simp [State.afterRead]

@[simp] theorem State.afterRead_pc (a : Addr) (n : Nat) (s : State) :
    (s.afterRead a n).pc = s.pc := by
  simp [State.afterRead]

@[simp] theorem State.afterRead_line (a : Addr) (n : Nat) (s : State) :
    (s.afterRead a n).line = s.line := by
  simp [State.afterRead]

@[simp] theorem State.afterRead_cfg (a : Addr) (n : Nat) (s : State) :
    (s.afterRead a n).cfg = s.cfg := by
  simp [State.afterRead]

@[simp] theorem State.afterRead_port (a : Addr) (n : Nat) (s : State) :
    (s.afterRead a n).port = s.port := by
  simp [State.afterRead]

@[simp] theorem State.afterRead_answers (a : Addr) (n : Nat) (s : State) :
    (s.afterRead a n).answers = s.answers.drop 1 := by
  simp [State.afterRead]

@[simp] theorem State.afterRead_drawn (a : Addr) (n : Nat) (s : State) :
    (s.afterRead a n).drawn = s.drawn + 1 := by
  simp [State.afterRead]

@[simp] theorem State.afterRead_trace (a : Addr) (n : Nat) (s : State) :
    (s.afterRead a n).trace = s.trace ++ [.busR a n (s.dataAt 0 n)] := by
  simp [State.afterRead]

@[simp] theorem State.afterRead_chip (a : Addr) (n : Nat) (s : State) :
    (s.afterRead a n).chip = s.chip := by
  simp [State.afterRead]

/-! ### `afterHigh` -/

@[simp] theorem State.afterHigh_mode (s : State) :
    s.afterHigh.mode = s.mode := by
  simp [State.afterHigh]

@[simp] theorem State.afterHigh_pwr (s : State) :
    s.afterHigh.pwr = s.pwr := by
  simp [State.afterHigh]

@[simp] theorem State.afterHigh_hp (s : State) :
    s.afterHigh.hp = s.hp := by
  simp [State.afterHigh]

@[simp] theorem State.afterHigh_pc (s : State) :
    s.afterHigh.pc = s.pc := by
  simp [State.afterHigh]

@[simp] theorem State.afterHigh_line (s : State) :
    s.afterHigh.line = if s.okAt 0 then .high else s.line := by
  simp [State.afterHigh, State.driveLine_line]

@[simp] theorem State.afterHigh_cfg (s : State) :
    s.afterHigh.cfg = s.cfg := by
  simp [State.afterHigh]

@[simp] theorem State.afterHigh_port (s : State) :
    s.afterHigh.port = s.port := by
  simp [State.afterHigh]

@[simp] theorem State.afterHigh_answers (s : State) :
    s.afterHigh.answers = s.answers.drop 1 := by
  simp [State.afterHigh]

@[simp] theorem State.afterHigh_drawn (s : State) :
    s.afterHigh.drawn = s.drawn + 1 := by
  simp [State.afterHigh]

@[simp] theorem State.afterHigh_trace (s : State) :
    s.afterHigh.trace = s.trace ++ [.rstHigh (s.okAt 0)] := by
  simp [State.afterHigh]

@[simp] theorem State.afterHigh_chip (s : State) :
    s.afterHigh.chip = [] := by
  simp [State.afterHigh]

/-! ### `afterLow` -/

@[simp] theorem State.afterLow_mode (s : State) :
    s.afterLow.mode = s.mode := by
  simp [State.afterLow]

@[simp] theorem State.afterLow_pwr (s : State) :
    s.afterLow.pwr = s.pwr := by
  simp [State.afterLow]

@[simp] theorem State.afterLow_hp (s : State) :
    s.afterLow.hp = s.hp := by
  simp [State.afterLow]

@[simp] theorem State.afterLow_pc (s : State) :
    s.afterLow.pc = s.pc := by
  simp [State.afterLow]

@[simp] theorem State.afterLow_line (s : State) :
    s.afterLow.line = if s.okAt 0 then .low else s.line := by
  simp [State.afterLow, State.driveLine_line]

@[simp] theorem State.afterLow_cfg (s : State) :
    s.afterLow.cfg = s.cfg := by
  simp [State.afterLow]

@[simp] theorem State.afterLow_port (s : State) :
    s.afterLow.port = s.port := by
  simp [State.afterLow]

@[simp] theorem State.afterLow_answers (s : State) :
    s.afterLow.answers = s.answers.drop 1 := by
  simp [State.afterLow]

@[simp] theorem State.afterLow_drawn (s : State) :
    s.afterLow.drawn = s.drawn + 1 := by
  simp [State.afterLow]

@[simp] theorem State.afterLow_trace (s : State) :
    s.afterLow.trace = s.trace ++ [.rstLow (s.okAt 0)] := by
  simp [State.afterLow]

@[simp] theorem State.afterLow_chip (s : State) :
    s.afterLow.chip = s.chip := by
  simp [State.afterLow]

end Sys2Proof.Machine
end

