-- ==== Sys2Proof/Laws/Answers.lean ====
section
/-! SUPPORT. The environment's answers: using one up moves every later one a place nearer, a read of n bytes yields
exactly n, and an update that is no answer leaves them alone. -/

namespace Sys2Proof.Machine

/-- "on answer `ok(bytes)` the value is the list of `n` bytes" (R11). -/
@[simp] theorem dataOf_length (d n i : Nat) (bytes : List Byte) : (dataOf d n i bytes).length = n := by
  induction n generalizing i bytes with
  | zero => rfl
  | succ n ih => cases bytes <;> simp [dataOf, ih]

theorem State.dataAt_length {s : State} {k n : Nat} {bytes : List Byte} (h : s.dataAt k n = some bytes) :
    bytes.length = n := by
  unfold State.dataAt at h
  split at h
  · simp only [Option.some.injEq] at h; subst h; simp
  · cases h

/-- A read of one byte gives one byte. -/
theorem State.dataAt_one {s : State} {k : Nat} {bytes : List Byte} (h : s.dataAt k 1 = some bytes) :
    bytes = [oneByte bytes] := by
  have := State.dataAt_length h
  match bytes, this with
  | [b], _ => rfl

/-- The answers a state gives depend on its script and its counter alone. -/
theorem State.answerAt_congr {s t : State} {k j : Nat} (h : t.answers[j]? = s.answers[k]?)
    (hd : t.drawn + j = s.drawn + k) : t.answerAt j = s.answerAt k := by
  unfold State.answerAt; rw [h, hd]

theorem State.okAt_congr {s t : State} {k j : Nat} (h : t.answers[j]? = s.answers[k]?)
    (hd : t.drawn + j = s.drawn + k) : t.okAt j = s.okAt k := by
  unfold State.okAt; rw [State.answerAt_congr h hd]

theorem State.dataAt_congr {s t : State} {k j : Nat} (n : Nat) (h : t.answers[j]? = s.answers[k]?)
    (hd : t.drawn + j = s.drawn + k) : t.dataAt j n = s.dataAt k n := by
  unfold State.dataAt; rw [State.answerAt_congr h hd, hd]

/-- After `m` answers the next is the one that was `m` places away. -/
theorem State.okAt_of_drop {s t : State} {m : Nat} (k : Nat) (h : t.answers = s.answers.drop m)
    (hd : t.drawn = s.drawn + m) : t.okAt k = s.okAt (m + k) :=
  State.okAt_congr (by rw [h, List.getElem?_drop]) (by omega)

theorem State.dataAt_of_drop {s t : State} {m : Nat} (k n : Nat) (h : t.answers = s.answers.drop m)
    (hd : t.drawn = s.drawn + m) : t.dataAt k n = s.dataAt (m + k) n :=
  State.dataAt_congr n (by rw [h, List.getElem?_drop]) (by omega)

end Sys2Proof.Machine
end

