-- ==== Sys2Proof/Laws/Cfg.lean ====
section
/-! SUPPORT. What the constraints of R9 give: every transaction the rules issue is legal, the defaults of `init` are
usable. -/

namespace Sys2Proof.Machine

/-- The items of R9 as propositions. -/
theorem valid_items {c : Cfg} (h : c.valid = true) :
    c.addressesEnumerated = true ∧ c.burstsInCoreBank = true ∧ c.testPaDistinct = true ∧
    c.modeCodesDistinct = true ∧ c.paBitsPlaced = true ∧ c.statusMasksSingle = true ∧
    c.synthesizerConstants = true ∧ c.presetsUsable = true ∧ c.initSyncWordsUsable = true ∧
    c.initFreqUsable = true := by
  simp only [Cfg.valid, Bool.and_eq_true] at h
  tauto

/-- Item 1. -/
theorem enumerated_of_valid {c : Cfg} (h : c.valid = true) {a : Addr} (ha : a ∈ c.singleAddresses) :
    isEnumerated a.toNat = true :=
  List.all_eq_true.mp (valid_items h).1 a ha

/-- Item 2. -/
theorem bursts_of_valid {c : Cfg} (h : c.valid = true) :
    c.aDataModul.toNat + 4 ≤ 0x4F ∧ c.aFrf.toNat + 2 ≤ 0x4F ∧ c.aRxBw.toNat + 1 ≤ 0x4F ∧
    c.aPreamble.toNat + 1 ≤ 0x4F ∧ c.aSyncConfig.toNat + 8 ≤ 0x4F := by
  have := (valid_items h).2.1
  simp only [Cfg.burstsInCoreBank, Bool.and_eq_true, decide_eq_true_eq] at this
  tauto

/-- Item 8. -/
theorem initPreset_of_valid {c : Cfg} (h : c.valid = true) : ∃ v, presetAt c c.initPreset = some v := by
  have := (valid_items h).2.2.2.2.2.2.2.1
  simp only [Cfg.presetsUsable, Bool.and_eq_true, decide_eq_true_eq] at this
  exact ⟨_, List.getElem?_eq_getElem this.2⟩

/-- Item 9. -/
theorem initSyncWords_of_valid {c : Cfg} (h : c.valid = true) : badWordCount c.initSyncWords = false := by
  have := (valid_items h).2.2.2.2.2.2.2.2.1
  simpa [Cfg.initSyncWordsUsable] using this

/-- R175 corner case e. -/
theorem initFreq_of_valid {c : Cfg} (h : c.valid = true) : ∃ bytes, frfBytes c c.initFreqMhz = some bytes := by
  have := (valid_items h).2.2.2.2.2.2.2.2.2
  simp only [Cfg.initFreqUsable, decide_eq_true_eq] at this
  exact ⟨_, if_pos this⟩

/-- A word that fits is split. -/
theorem frfBytes_of_lt {c : Cfg} {f : BitVec 16} (h : frfWord c f < 2 ^ 24) :
    frfBytes c f = some (splitWord (BitVec.ofNat 24 (frfWord c f))) :=
  if_pos h

/-- A word that does not fit has no bytes. -/
theorem frfBytes_of_ge {c : Cfg} {f : BitVec 16} (h : 2 ^ 24 ≤ frfWord c f) : frfBytes c f = none :=
  if_neg (Nat.not_lt.mpr h)

/-- The synthesizer burst has three bytes. -/
theorem frfBytes_length {c : Cfg} {f : BitVec 16} {bytes : List Byte} (h : frfBytes c f = some bytes) :
    bytes.length = 3 := by
  unfold frfBytes at h
  split at h
  · simp only [Option.some.injEq] at h; subst h; rfl
  · cases h

/-- An address of the core bank is enumerated. -/
theorem isEnumerated_core {a : Nat} (h : a ≤ 0x4F) : isEnumerated a = true := by
  simp [isEnumerated, h]

/-- A single-register access to an enumerated address is legal. -/
theorem legalBurst_one {c : Cfg} {a : Addr} (h : isEnumerated a.toNat = true) : legalBurst c a 1 = true := by
  simp [legalBurst, h]

/-- A burst that stays in the core bank is legal. -/
theorem legalBurst_core {c : Cfg} {a : Addr} {n : Nat} (h : a.toNat + n ≤ 0x50) (hn : 1 ≤ n) :
    legalBurst c a n = true := by
  have h0 : isEnumerated a.toNat = true := isEnumerated_core (by omega)
  have : ∀ i ∈ List.range n, isEnumerated (a.toNat + i) = true := fun i hi =>
    isEnumerated_core (by have := List.mem_range.mp hi; omega)
  simp only [legalBurst, h0, Bool.true_and, Bool.or_eq_true]
  exact .inr (List.all_eq_true.mpr this)

/-- A burst at the FIFO address is legal at every length. -/
theorem legalBurst_fifo {c : Cfg} (n : Nat) (h : isEnumerated c.aFifo.toNat = true) :
    legalBurst c c.aFifo n = true := by
  simp [legalBurst, h]

end Sys2Proof.Machine
end

