-- ==== Sys2Proof/Laws/Memory.lean ====
section
/-! SUPPORT. The record of register writes keeps its canonical form, a byte written is the byte read, and every other
address reads as before. -/

namespace Sys2Proof.Machine.Memory

/-- Where an address is listed after a write. -/
theorem mem_write_fst {a : Nat} {b : Byte} {m : Memory} {c : Host.Cell} (h : c ∈ write a b m) :
    c = (a, b) ∨ c ∈ m := by
  induction m with
  | nil => simpa [write] using h
  | cons d m ih =>
    obtain ⟨x, v⟩ := d
    simp only [write] at h
    split at h
    · simpa using h
    · split at h
      · simp only [List.mem_cons] at h ⊢; tauto
      · simp only [List.mem_cons] at h ⊢
        rcases h with h | h
        · exact .inr (.inl h)
        · rcases ih h with h | h
          · exact .inl h
          · exact .inr (.inr h)

/-- Writing one byte keeps the canonical form. -/
theorem wf_write {a : Nat} {b : Byte} {m : Memory} (h : wf m) : wf (write a b m) := by
  induction m with
  | nil => simp [write, wf]
  | cons d m ih =>
    obtain ⟨x, v⟩ := d
    simp only [wf, List.pairwise_cons] at h
    simp only [write]
    split
    · rename_i hlt
      simp only [wf, List.pairwise_cons, List.mem_cons]
      refine ⟨?_, h.1, h.2⟩
      rintro c (rfl | hc)
      · exact hlt
      · exact lt_trans hlt (h.1 c hc)
    · split
      · rename_i heq
        subst heq
        simpa [wf] using h
      · rename_i hlt hne
        simp only [wf, List.pairwise_cons]
        refine ⟨fun c hc => ?_, ih h.2⟩
        rcases mem_write_fst hc with rfl | hc
        · show x < a
          omega
        · exact h.1 c hc

/-- An acknowledged burst keeps the canonical form. -/
theorem wf_storeBurst {bytes : List Byte} {base : Nat} {m : Memory} (h : wf m) : wf (storeBurst base bytes m) := by
  induction bytes generalizing base m with
  | nil => exact h
  | cons b bs ih => exact ih (wf_write h)

/-- A failed burst keeps the canonical form. -/
theorem wf_forgetBurst {base n : Nat} {m : Memory} (h : wf m) : wf (forgetBurst base n m) :=
  List.Pairwise.filter _ h

/-- The byte written is the byte read. -/
theorem read_write_self (a : Nat) (b : Byte) (m : Memory) : read a (write a b m) = some b := by
  induction m with
  | nil => simp [write, read]
  | cons d m ih =>
    obtain ⟨x, v⟩ := d
    simp only [write]
    split
    · simp [read]
    · split
      · simp [read]
      · rename_i hne
        simp [read, hne, ih]

/-- Every other address reads as before. -/
theorem read_write_other {a a' : Nat} (b : Byte) (m : Memory) (h : a' ≠ a) :
    read a' (write a b m) = read a' m := by
  induction m with
  | nil => simp [write, read, h]
  | cons d m ih =>
    obtain ⟨x, v⟩ := d
    simp only [write]
    split
    · simp [read, h]
    · split
      · rename_i heq
        subst heq
        simp [read, h]
      · simp [read, ih]

end Sys2Proof.Machine.Memory
end

