-- ==== Sys2Proof/Laws/Ops.lean ====
section
/-! SUPPORT. What each shared operation can do, once: a transaction or a line drive that answers next was legal and
went on by its answer; a legal one always answers next. -/

namespace Sys2Proof.Machine

/-- Every way a `MemWrite` answers next. -/
theorem memWrite_next {c : Instr} {a : Addr} {bytes : List Byte} {k : State → State} {s t : State}
    (h : memWrite c a bytes k s = .next t) :
    legalBurst s.cfg a bytes.length = true ∧
    ((s.okAt 0 = true ∧ t = k (s.afterWrite a bytes)) ∨
     (s.okAt 0 = false ∧ t = (s.afterWrite a bytes).raise c .spiWriteError)) := by
  unfold memWrite at h
  split at h
  · rename_i hl
    simp only [Host.Outcome.next.injEq] at h
    refine ⟨hl, ?_⟩
    cases ho : s.okAt 0 <;> simp [ho] at h
    · exact .inr ⟨rfl, h.symm⟩
    · exact .inl ⟨rfl, h.symm⟩
  · cases h

/-- A legal `MemWrite` answered `ok` goes on. -/
theorem memWrite_ok {c : Instr} {a : Addr} {bytes : List Byte} {k : State → State} {s : State}
    (hl : legalBurst s.cfg a bytes.length = true) (ho : s.okAt 0 = true) :
    memWrite c a bytes k s = .next (k (s.afterWrite a bytes)) := by
  simp [memWrite, hl, ho]

/-- A legal `MemWrite` answered `fail` raises `SpiWriteError`. -/
theorem memWrite_fail {c : Instr} {a : Addr} {bytes : List Byte} {k : State → State} {s : State}
    (hl : legalBurst s.cfg a bytes.length = true) (ho : s.okAt 0 = false) :
    memWrite c a bytes k s = .next ((s.afterWrite a bytes).raise c .spiWriteError) := by
  simp [memWrite, hl, ho]

/-- Every way a `MemRead` answers next. -/
theorem memRead_next {c : Instr} {a : Addr} {n : Nat} {k : List Byte → State → State} {s t : State}
    (h : memRead c a n k s = .next t) :
    legalBurst s.cfg a n = true ∧
    ((∃ bytes, s.dataAt 0 n = some bytes ∧ t = k bytes (s.afterRead a n)) ∨
     (s.dataAt 0 n = none ∧ t = (s.afterRead a n).raise c .spiReadError)) := by
  unfold memRead at h
  split at h
  · rename_i hl
    simp only [Host.Outcome.next.injEq] at h
    refine ⟨hl, ?_⟩
    cases hd : s.dataAt 0 n with
    | none => rw [hd] at h; exact .inr ⟨rfl, h.symm⟩
    | some bytes => rw [hd] at h; exact .inl ⟨bytes, rfl, h.symm⟩
  · cases h

/-- A legal `MemRead` answered with bytes goes on with them. -/
theorem memRead_ok {c : Instr} {a : Addr} {n : Nat} {k : List Byte → State → State} {s : State} {bytes : List Byte}
    (hl : legalBurst s.cfg a n = true) (hd : s.dataAt 0 n = some bytes) :
    memRead c a n k s = .next (k bytes (s.afterRead a n)) := by
  simp [memRead, hl, hd]

/-- A legal `MemRead` answered `fail` raises `SpiReadError`. -/
theorem memRead_fail {c : Instr} {a : Addr} {n : Nat} {k : List Byte → State → State} {s : State}
    (hl : legalBurst s.cfg a n = true) (hd : s.dataAt 0 n = none) :
    memRead c a n k s = .next ((s.afterRead a n).raise c .spiReadError) := by
  simp [memRead, hl, hd]

/-- The two ways `ResetLine(high)` goes on. -/
theorem lineHigh_next {c : Instr} {k : State → State} {s t : State} (h : lineHigh c k s = .next t) :
    (s.okAt 0 = true ∧ t = k s.afterHigh) ∨ (s.okAt 0 = false ∧ t = s.afterHigh.raise c .resetError) := by
  simp only [lineHigh, Host.Outcome.next.injEq] at h
  cases ho : s.okAt 0 <;> simp [ho] at h
  · exact .inr ⟨rfl, h.symm⟩
  · exact .inl ⟨rfl, h.symm⟩

/-- The two ways `ResetLine(low)` goes on. -/
theorem lineLow_next {c : Instr} {k : State → State} {s t : State} (h : lineLow c k s = .next t) :
    (s.okAt 0 = true ∧ t = k s.afterLow) ∨ (s.okAt 0 = false ∧ t = s.afterLow.raise c .resetError) := by
  simp only [lineLow, Host.Outcome.next.injEq] at h
  cases ho : s.okAt 0 <;> simp [ho] at h
  · exact .inr ⟨rfl, h.symm⟩
  · exact .inl ⟨rfl, h.symm⟩

/-- A delay cannot fail. -/
theorem delayFor_next {d : Delay} {k : State → State} {s t : State} (h : delayFor d k s = .next t) :
    t = k (s.emit (.delay d)) := by
  simpa [delayFor] using h.symm

/-- The result is emitted and the block is idle. -/
theorem respond_next {r : Result} {s t : State} (h : respond r s = .next t) :
    t = (s.emit (.res r)).toIdle := by
  simpa [respond] using h.symm

/-- A record kept canonical by a write transaction. -/
theorem wf_recordWrite {a : Addr} {bytes : List Byte} {b : Bool} {s : State} (h : Memory.wf s.chip) :
    Memory.wf (s.recordWrite a bytes b).chip := by
  rw [State.recordWrite_chip]
  split
  · exact h
  · split
    · exact Memory.wf_storeBurst h
    · exact Memory.wf_forgetBurst h

/-- The running command's own event is performed. -/
theorem resume_self {c : Instr} {p : Pos} {a : Action} {s : State} (h : p.command = c) :
    resume c p a s = perform c a s := by
  simp [resume, h]

/-- `call set_mode(target)` goes to its first label or past it, and changes nothing else itself. -/
theorem enterSetMode_cases (target : Mode) (wrap : SetModePos → Pos) (done : State → State) (s : State) :
    (s.mode = target ∧ enterSetMode target wrap done s = done s) ∨
    (s.mode ≠ target ∧ (target = .transmit ∨ target = .receive) ∧ 18 ≤ dbm s.pwr ∧
      enterSetMode target wrap done s = s.goto (wrap .testPa1)) ∨
    (s.mode ≠ target ∧ ¬((target = .transmit ∨ target = .receive) ∧ 18 ≤ dbm s.pwr) ∧
      enterSetMode target wrap done s = s.goto (wrap .readMode)) := by
  unfold enterSetMode setModeEntry
  by_cases h : target = s.mode
  · exact .inl ⟨h.symm, by simp [h]⟩
  · by_cases h2 : (target = .transmit ∨ target = .receive) ∧ wantsBoost s.pwr
    · refine .inr (.inl ⟨fun e => h e.symm, h2.1, by simpa [wantsBoost] using h2.2, by simp only [if_neg h, if_pos h2]⟩)
    · refine .inr (.inr ⟨fun e => h e.symm, by simpa [wantsBoost] using h2, by simp only [if_neg h, if_neg h2]⟩)

/-- The three outcomes of the checks of `receive` on a length byte. -/
theorem receiveLength_large {capacity : Nat} {len : Byte} (u : State) (h : capacity < len.toNat) :
    receiveLength capacity len u = u.raise (.receive capacity) .messageTooLarge :=
  if_pos h

theorem receiveLength_small {capacity : Nat} {len : Byte} (u : State) (h : len.toNat ≤ capacity) (h4 : len.toNat < 4) :
    receiveLength capacity len u = u.goto (.receive capacity .underflow) :=
  (if_neg (Nat.not_lt.mpr h)).trans (if_pos h4)

theorem receiveLength_usable {capacity : Nat} {len : Byte} (u : State) (h : len.toNat ≤ capacity)
    (h4 : 4 ≤ len.toNat) : receiveLength capacity len u = u.goto (.receive capacity (.header len)) :=
  (if_neg (Nat.not_lt.mpr h)).trans (if_neg (Nat.not_lt.mpr h4))

/-- The payload is read, or is empty and needs no event. -/
theorem receivePayload_read {capacity : Nat} {len : Byte} (u : State)
    (h : 4 < len.toNat ∨ u.cfg.zeroLenBurstIssued = true) :
    receivePayload capacity len u = u.goto (.receive capacity (.payload len)) := by
  refine if_neg ?_
  rintro ⟨h0, h1⟩
  rcases h with h | h
  · unfold payloadCount at h0; omega
  · rw [h] at h1; cases h1

theorem receivePayload_none {capacity : Nat} {len : Byte} (u : State) (h : len.toNat = 4)
    (hz : u.cfg.zeroLenBurstIssued = false) :
    receivePayload capacity len u = u.finishOk (.receive capacity) (.bytes []) :=
  if_pos ⟨by unfold payloadCount; omega, hz⟩

end Sys2Proof.Machine
end

