-- ==== Sys2Proof/Laws/Exec.lean ====
section
/-! SUPPORT. What exec can do, once: accept a command at `Idle`, or perform the event at the position. -/

namespace Sys2Proof.Machine

/-- Inside a command, whatever instruction answers next has performed the event at the position. -/
theorem exec_running_next {i : Instr} {s t : State} {p : Pos} (hp : s.pc = .running p)
    (h : exec i s = .next t) : perform p.command (actionAt p s) s = .next t := by
  cases i with
  | rd a =>
    simp only [exec, execRd, hp] at h
    split at h
    · rename_i hact
      split at h
      · rw [hact]; exact h
      · cases h
    · cases h
  | wr a =>
    simp only [exec, execWr, hp] at h
    split at h
    · rename_i hact
      split at h
      · rw [hact]; exact h
      · cases h
    · cases h
  | _ =>
    cases p <;>
    simp only [exec, execInit, execReset, execSetMode, execSetModemConfig, execSetSyncWords, execSetTxPower,
      execSetFrequency, execSend, execIsMessageAvailable, execReceive, execReadTemperature, execRssi,
      execReadAllRegisters, hp, resume, reduceCtorEq] at h <;>
    (split at h <;> first | (rename_i hc; rw [hc]; exact h) | cases h)

/-- The record of a state right after acceptance: `Cmd` observed, nothing drawn, and the sequencer at a first label
or a result; the cached power is the one field a command may already have written. -/
structure Accepted (i : Instr) (s t : State) : Prop where
  trace : t.trace = s.trace ++ [.cmd i]
  mode : t.mode = s.mode
  pwr : t.pwr = s.pwr ∨ i = .setTxPower t.pwr
  hp : t.hp = s.hp
  line : t.line = s.line
  cfg : t.cfg = s.cfg
  port : t.port = s.port
  answers : t.answers = s.answers
  drawn : t.drawn = s.drawn
  chip : t.chip = s.chip
  isCommand : i.isCommand = true

/-- At `Idle`, whatever instruction answers next is a command and has been accepted. -/
theorem exec_idle_next {i : Instr} {s t : State} (hp : s.pc = .idle) (h : exec i s = .next t) : Accepted i s t := by
  cases i with
  | rd a => simp [exec, execRd, hp] at h
  | wr a => simp [exec, execWr, hp] at h
  | setMode target =>
    simp only [exec, execSetMode, hp, accept, Host.Outcome.next.injEq] at h
    subst h
    rcases enterSetMode_cases target (.setMode target) (State.finishOk (.setMode target) .unit)
      (s.emit (.cmd (.setMode target))) with ⟨-, e⟩ | ⟨-, -, -, e⟩ | ⟨-, -, e⟩ <;> rw [e] <;>
    constructor <;> simp [Instr.isCommand]
  | setModemConfig i =>
    simp only [exec, execSetModemConfig, hp, accept] at h
    split at h
    · simp only [Host.Outcome.next.injEq] at h; subst h; constructor <;> simp [Instr.isCommand]
    · cases h
  | setSyncWords policy words =>
    simp only [exec, execSetSyncWords, hp, accept, enterSetSyncWords, Host.Outcome.next.injEq] at h
    subst h; split <;> constructor <;> simp [Instr.isCommand]
  | setTxPower power =>
    simp only [exec, execSetTxPower, hp, accept, enterSetTxPower, Host.Outcome.next.injEq] at h
    subst h; constructor <;> simp [Instr.isCommand]
  | setFrequency f =>
    simp only [exec, execSetFrequency, hp, accept] at h
    split at h
    · simp only [Host.Outcome.next.injEq] at h; subst h; constructor <;> simp [Instr.isCommand]
    · cases h
  | send payload =>
    simp only [exec, execSend, hp, accept, Host.Outcome.next.injEq] at h
    subst h; split <;> constructor <;> simp [Instr.isCommand]
  | isMessageAvailable =>
    simp only [exec, execIsMessageAvailable, hp, accept, Host.Outcome.next.injEq] at h
    subst h; split <;> constructor <;> simp [Instr.isCommand]
  | _ =>
    simp only [exec, execInit, execReset, execReceive, execReadTemperature, execRssi, execReadAllRegisters, hp,
      accept, Host.Outcome.next.injEq] at h
    subst h; constructor <;> simp [Instr.isCommand]

end Sys2Proof.Machine
end

