-- ==== Sys2Proof/Laws/Frame.lean ====
section
/-! SUPPORT. What follows an event, once: whatever the sequencer does between an event and the next one, it writes only
the cached mode, the cached power and its position. -/

namespace Sys2Proof.Machine

/-- `t` differs from `u` at most in the cached mode, the cached power and the position. -/
structure Quiet (u t : State) : Prop where
  hp : t.hp = u.hp
  line : t.line = u.line
  cfg : t.cfg = u.cfg
  port : t.port = u.port
  answers : t.answers = u.answers
  drawn : t.drawn = u.drawn
  trace : t.trace = u.trace
  chip : t.chip = u.chip

/-- An action whose continuation is quiet. -/
def Action.quiet : Action → Prop
  | .write _ _ k => ∀ u, Quiet u (k u)
  | .read _ _ k => ∀ bytes u, Quiet u (k bytes u)
  | .lineHigh k => ∀ u, Quiet u (k u)
  | .lineLow k => ∀ u, Quiet u (k u)
  | .delay _ k => ∀ u, Quiet u (k u)
  | .result _ => True
  | .fault _ => True
  | .refuse _ => True

theorem quiet_refl (u : State) : Quiet u u := by constructor <;> rfl

theorem quiet_goto (p : Pos) (u : State) : Quiet u (u.goto p) := by constructor <;> rfl

theorem quiet_finishOk (c : Instr) (v : Value) (u : State) : Quiet u (u.finishOk c v) := by constructor <;> rfl

theorem quiet_raise (c : Instr) (e : ErrKind) (u : State) : Quiet u (u.raise c e) := by constructor <;> rfl

theorem quiet_cacheMode {k : State → State} (h : ∀ u, Quiet u (k u)) (m : Mode) (u : State) :
    Quiet u (k (u.cacheMode m)) := by
  obtain ⟨h1, h2, h3, h4, h5, h6, h7, h8⟩ := h (u.cacheMode m)
  exact ⟨h1, h2, h3, h4, h5, h6, h7, h8⟩

theorem quiet_enterSetMode {k : State → State} (h : ∀ u, Quiet u (k u)) (target : Mode) (wrap : SetModePos → Pos)
    (u : State) : Quiet u (enterSetMode target wrap k u) := by
  unfold enterSetMode
  split
  · exact quiet_goto _ u
  · exact h u

theorem waitAct_quiet {addr : Addr} {mask : Byte} {want : Bool} {wrap : WaitPos → Pos} {k : State → State}
    (h : ∀ u, Quiet u (k u)) (w : WaitPos) (s : State) : (waitAct addr mask want wrap k w s).quiet := by
  cases w with
  | poll =>
    intro bytes u
    dsimp only
    split
    · exact h u
    · exact quiet_goto _ u
  | sleep => exact quiet_goto _

theorem resetAct_quiet {wrap : ResetPos → Pos} {k : State → State} (h : ∀ u, Quiet u (k u)) (p : ResetPos) :
    (resetAct wrap k p).quiet := by
  cases p
  case settle => exact h
  all_goals exact quiet_goto _

theorem setModeAct_quiet {target : Mode} {wrap : SetModePos → Pos} {k : State → State} (h : ∀ u, Quiet u (k u))
    (p : SetModePos) (s : State) : (setModeAct target wrap k p s).quiet := by
  cases p
  case ready w => dsimp only [setModeAct]; exact waitAct_quiet (quiet_cacheMode h target) w s
  case readMode => intro bytes; exact quiet_goto _
  all_goals exact quiet_goto _

theorem modemAct_quiet {i : BitVec 8} {wrap : ModemPos → Pos} {k : State → State} (h : ∀ u, Quiet u (k u))
    (p : ModemPos) (s : State) : (modemAct i wrap k p s).quiet := by
  unfold modemAct
  split
  · trivial
  · cases p
    case packet => exact h
    all_goals exact quiet_goto _

theorem frequencyAct_quiet {f : BitVec 16} {k : State → State} (h : ∀ u, Quiet u (k u)) (s : State) :
    (frequencyAct f k s).quiet := by
  unfold frequencyAct
  split
  · trivial
  · exact h

theorem initAct_quiet (p : InitPos) (s : State) : (initAct p s).quiet := by
  have last : ∀ u, Quiet u (initLastStep u) := quiet_enterSetMode (quiet_finishOk _ _) _ _
  cases p with
  | pulse q => dsimp only [initAct]; exact resetAct_quiet (quiet_goto _) q
  | version =>
    intro bytes u
    dsimp only
    split
    · exact quiet_goto _ u
    · exact quiet_raise _ _ u
  | lna =>
    intro u
    dsimp only [enterSetSyncWords]
    split
    · exact quiet_raise _ _ u
    · exact quiet_goto _ u
  | modem q => dsimp only [initAct]; exact modemAct_quiet (quiet_goto _) q s
  | preamble => intro u; constructor <;> rfl
  | frequency => exact frequencyAct_quiet last s
  | toStandby q => dsimp only [initAct]; exact setModeAct_quiet (quiet_finishOk _ _) q s
  | _ => exact quiet_goto _

theorem sendAct_quiet (payload : List Byte) (p : SendPos) (s : State) : (sendAct payload p s).quiet := by
  cases p with
  | fifo => exact quiet_enterSetMode (quiet_goto _) _ _
  | toTransmit q => dsimp only [sendAct]; exact setModeAct_quiet (quiet_goto _) q s
  | sent w => dsimp only [sendAct]; exact waitAct_quiet (quiet_enterSetMode (quiet_finishOk _ _) _ _) w s
  | toStandby q => dsimp only [sendAct]; exact setModeAct_quiet (quiet_finishOk _ _) q s

theorem receiveAct_quiet (capacity : Nat) (p : ReceivePos) (s : State) : (receiveAct capacity p s).quiet := by
  cases p with
  | length =>
    intro bytes u
    dsimp only [receiveLength]
    split
    · exact quiet_raise _ _ u
    · split <;> exact quiet_goto _ u
  | underflow => trivial
  | header len =>
    intro bytes u
    dsimp only [receivePayload]
    split
    · exact quiet_finishOk _ _ u
    · exact quiet_goto _ u
  | payload len => intro bytes; exact quiet_finishOk _ _

/-- Every action is quiet. -/
theorem actionAt_quiet (p : Pos) (s : State) : (actionAt p s).quiet := by
  cases p with
  | init q => exact initAct_quiet q s
  | reset q => exact resetAct_quiet (quiet_finishOk _ _) q
  | setMode target q => exact setModeAct_quiet (quiet_finishOk _ _) q s
  | setModemConfig i q => exact modemAct_quiet (quiet_finishOk _ _) q s
  | setFrequency f => exact frequencyAct_quiet (quiet_finishOk _ _) s
  | send payload q => exact sendAct_quiet payload q s
  | receive capacity q => exact receiveAct_quiet capacity q s
  | readTemperature q =>
    cases q with
    | start => exact quiet_goto _
    | running w => dsimp only [actionAt, readTemperatureAct]; exact waitAct_quiet (quiet_goto _) w s
    | raw => intro bytes; exact quiet_finishOk _ _
  | readAllRegisters q =>
    cases q
    case aux6F => intro bytes; exact quiet_finishOk _ _
    all_goals intro bytes; exact quiet_goto _
  | isMessageAvailable => intro bytes u; exact quiet_finishOk _ _ u
  | rssi => intro bytes; exact quiet_finishOk _ _
  | finish c r => trivial
  | _ => exact quiet_finishOk _ _

/-- Every way the event at a position answers next, by the state `u` right after the event. -/
theorem perform_next {c : Instr} {a : Action} {s t : State} (hq : a.quiet) (h : perform c a s = .next t) :
    (∃ addr bytes k, a = .write addr bytes k ∧ legalBurst s.cfg addr bytes.length = true ∧
      Quiet (s.afterWrite addr bytes) t) ∨
    (∃ addr n k, a = .read addr n k ∧ legalBurst s.cfg addr n = true ∧ Quiet (s.afterRead addr n) t) ∨
    (∃ k, a = .lineHigh k ∧ Quiet s.afterHigh t) ∨
    (∃ k, a = .lineLow k ∧ Quiet s.afterLow t) ∨
    (∃ d k, a = .delay d k ∧ Quiet (s.emit (.delay d)) t) ∨
    (∃ r, a = .result r ∧ t = (s.emit (.res r)).toIdle) := by
  cases a with
  | write addr bytes k =>
    obtain ⟨hl, ⟨-, rfl⟩ | ⟨-, rfl⟩⟩ := memWrite_next h
    · exact .inl ⟨_, _, _, rfl, hl, hq _⟩
    · exact .inl ⟨_, _, _, rfl, hl, quiet_raise _ _ _⟩
  | read addr n k =>
    obtain ⟨hl, ⟨b, -, rfl⟩ | ⟨-, rfl⟩⟩ := memRead_next h
    · exact .inr (.inl ⟨_, _, _, rfl, hl, hq b _⟩)
    · exact .inr (.inl ⟨_, _, _, rfl, hl, quiet_raise _ _ _⟩)
  | lineHigh k =>
    obtain ⟨-, rfl⟩ | ⟨-, rfl⟩ := lineHigh_next h
    · exact .inr (.inr (.inl ⟨_, rfl, hq _⟩))
    · exact .inr (.inr (.inl ⟨_, rfl, quiet_raise _ _ _⟩))
  | lineLow k =>
    obtain ⟨-, rfl⟩ | ⟨-, rfl⟩ := lineLow_next h
    · exact .inr (.inr (.inr (.inl ⟨_, rfl, hq _⟩)))
    · exact .inr (.inr (.inr (.inl ⟨_, rfl, quiet_raise _ _ _⟩)))
  | delay d k =>
    obtain rfl := delayFor_next h
    exact .inr (.inr (.inr (.inr (.inl ⟨_, _, rfl, hq _⟩))))
  | result r => exact .inr (.inr (.inr (.inr (.inr ⟨_, rfl, respond_next h⟩))))
  | fault f => cases h
  | refuse r => cases h

end Sys2Proof.Machine
end

