-- ==== Sys2Proof/Laws/Runs.lean ====
section
/-! SUPPORT. For whole commands: what the environment answers after each named update, that every transaction a rule
issues is legal with a configuration of this hardware, and how `execFor` goes on. -/

namespace Sys2Proof.Machine

/-! ### Answers after an update -/

@[simp] theorem State.okAt_draw (s : State) (k : Nat) : s.draw.okAt k = s.okAt (1 + k) :=
  State.okAt_of_drop k rfl rfl
@[simp] theorem State.dataAt_draw (s : State) (k n : Nat) : s.draw.dataAt k n = s.dataAt (1 + k) n :=
  State.dataAt_of_drop k n rfl rfl
@[simp] theorem State.okAt_emit (e : Event) (s : State) (k : Nat) : (s.emit e).okAt k = s.okAt k := rfl
@[simp] theorem State.dataAt_emit (e : Event) (s : State) (k n : Nat) : (s.emit e).dataAt k n = s.dataAt k n := rfl
@[simp] theorem State.okAt_goto (p : Pos) (s : State) (k : Nat) : (s.goto p).okAt k = s.okAt k := rfl
@[simp] theorem State.dataAt_goto (p : Pos) (s : State) (k n : Nat) : (s.goto p).dataAt k n = s.dataAt k n := rfl
@[simp] theorem State.okAt_cacheMode (m : Mode) (s : State) (k : Nat) : (s.cacheMode m).okAt k = s.okAt k := rfl
@[simp] theorem State.dataAt_cacheMode (m : Mode) (s : State) (k n : Nat) :
    (s.cacheMode m).dataAt k n = s.dataAt k n := rfl
@[simp] theorem State.okAt_cachePower (w : BitVec 8) (s : State) (k : Nat) : (s.cachePower w).okAt k = s.okAt k := rfl
@[simp] theorem State.dataAt_cachePower (w : BitVec 8) (s : State) (k n : Nat) :
    (s.cachePower w).dataAt k n = s.dataAt k n := rfl
@[simp] theorem State.okAt_afterWrite (a : Addr) (bytes : List Byte) (s : State) (k : Nat) :
    (s.afterWrite a bytes).okAt k = s.okAt (1 + k) :=
  State.okAt_of_drop k (by simp) (by simp)
@[simp] theorem State.dataAt_afterWrite (a : Addr) (bytes : List Byte) (s : State) (k n : Nat) :
    (s.afterWrite a bytes).dataAt k n = s.dataAt (1 + k) n :=
  State.dataAt_of_drop k n (by simp) (by simp)
@[simp] theorem State.okAt_afterRead (a : Addr) (m : Nat) (s : State) (k : Nat) :
    (s.afterRead a m).okAt k = s.okAt (1 + k) :=
  State.okAt_of_drop k (by simp) (by simp)
@[simp] theorem State.dataAt_afterRead (a : Addr) (m : Nat) (s : State) (k n : Nat) :
    (s.afterRead a m).dataAt k n = s.dataAt (1 + k) n :=
  State.dataAt_of_drop k n (by simp) (by simp)
@[simp] theorem State.okAt_afterHigh (s : State) (k : Nat) : s.afterHigh.okAt k = s.okAt (1 + k) :=
  State.okAt_of_drop k (by simp) (by simp)
@[simp] theorem State.dataAt_afterHigh (s : State) (k n : Nat) : s.afterHigh.dataAt k n = s.dataAt (1 + k) n :=
  State.dataAt_of_drop k n (by simp) (by simp)
@[simp] theorem State.okAt_afterLow (s : State) (k : Nat) : s.afterLow.okAt k = s.okAt (1 + k) :=
  State.okAt_of_drop k (by simp) (by simp)
@[simp] theorem State.dataAt_afterLow (s : State) (k n : Nat) : s.afterLow.dataAt k n = s.dataAt (1 + k) n :=
  State.dataAt_of_drop k n (by simp) (by simp)
@[simp] theorem State.okAt_answered (m : Nat) (s : State) (k : Nat) : (s.answered m).okAt k = s.okAt (m + k) :=
  State.okAt_of_drop k rfl rfl
@[simp] theorem State.dataAt_answered (m : Nat) (s : State) (k n : Nat) :
    (s.answered m).dataAt k n = s.dataAt (m + k) n :=
  State.dataAt_of_drop k n rfl rfl

/-- A read that gives bytes was answered `ok`, one that gives none was answered `fail`. -/
theorem State.okAt_of_dataAt {s : State} {k n : Nat} {bytes : List Byte} (h : s.dataAt k n = some bytes) :
    s.okAt k = true := by
  unfold State.dataAt at h; unfold State.okAt; split at h <;> simp_all

/-- An answer `fail` gives no bytes. -/
theorem State.dataAt_of_fail {s : State} {k : Nat} (n : Nat) (h : s.okAt k = false) : s.dataAt k n = none := by
  unfold State.okAt at h; unfold State.dataAt; split at h <;> simp_all

/-! ### Legal transactions -/

/-- The single-register accesses of the rules, each in `singleAddresses`. -/
theorem legal_single {c : Cfg} (h : c.valid = true) {a : Addr} (ha : a ∈ c.singleAddresses) : legalBurst c a 1 = true :=
  legalBurst_one (enumerated_of_valid h ha)

/-- The bursts of the rules. -/
theorem legal_bursts {c : Cfg} (h : c.valid = true) :
    legalBurst c c.aDataModul 5 = true ∧ legalBurst c c.aRxBw 2 = true ∧ legalBurst c c.aFrf 3 = true ∧
    legalBurst c c.aPreamble 2 = true ∧
    (∀ words : List Byte, badWordCount words = false → legalBurst c c.aSyncConfig (words.length + 1) = true) ∧
    (∀ n, legalBurst c c.aFifo n = true) := by
  obtain ⟨h1, h2, h3, h4, h5⟩ := bursts_of_valid h
  refine ⟨legalBurst_core (by omega) (by omega), legalBurst_core (by omega) (by omega),
    legalBurst_core (by omega) (by omega), legalBurst_core (by omega) (by omega), ?_, ?_⟩
  · intro words hw
    have : words.length ≤ 8 := by
      simp only [badWordCount, Bool.or_eq_false_iff, decide_eq_false_iff_not] at hw; omega
    exact legalBurst_core (by omega) (by omega)
  · intro n; exact legalBurst_fifo n (enumerated_of_valid h (by simp [Cfg.singleAddresses]))

/-! ### Events in a row -/

/-- A running command is performed when its own instruction is executed. -/
theorem exec_command {s : State} {p : Pos} (hp : s.pc = .running p) (hc : p.command.isCommand = true) :
    exec p.command s = perform p.command (actionAt p s) s := by
  cases p with
  | finish c r =>
    cases c <;> simp_all [Pos.command, exec, execInit, execReset, execSetMode, execSetModemConfig, execSetSyncWords,
      execSetTxPower, execSetFrequency, execSend, execIsMessageAvailable, execReceive, execReadTemperature, execRssi,
      execReadAllRegisters, resume, actionAt, Instr.isCommand]
  | _ =>
    simp [Pos.command, exec, execInit, execReset, execSetMode, execSetModemConfig, execSetSyncWords, execSetTxPower,
      execSetFrequency, execSend, execIsMessageAvailable, execReceive, execReadTemperature, execRssi,
      execReadAllRegisters, hp, resume, actionAt]

/-- Two states with the same fields are the same. -/
theorem State.eq_of_fields {s t : State} (mode : s.mode = t.mode) (pwr : s.pwr = t.pwr) (hp : s.hp = t.hp)
    (pc : s.pc = t.pc) (line : s.line = t.line) (cfg : s.cfg = t.cfg) (port : s.port = t.port)
    (answers : s.answers = t.answers) (drawn : s.drawn = t.drawn) (trace : s.trace = t.trace)
    (chip : s.chip = t.chip) : s = t := by
  cases s; cases t; simp_all

/-- One event, then the rest. -/
theorem execFor_next {i : Instr} {n : Nat} {s t : State} (h : exec i s = .next t) :
    execFor i (n + 1) s = execFor i n t := by
  simp [execFor, h]

/-- `m` events, then the rest. -/
theorem execFor_add {i : Instr} {m n : Nat} {s t : State} (h : execFor i m s = .next t) :
    execFor i (m + n) s = execFor i n t := by
  induction m generalizing s with
  | zero => simp only [execFor, Host.Outcome.next.injEq] at h; subst h; simp
  | succ m ih =>
    rw [Nat.succ_add]
    simp only [execFor] at h ⊢
    split at h
    · exact ih h
    · cases h
    · cases h

/-- Acceptance, then the rest. -/
theorem run_accept {i : Instr} {n : Nat} {s : State} {out : Out} {k : State → State} (he : exec i s = accept i k s)
    (h : execFor i n (k (s.emit (.cmd i))) = out) : execFor i (n + 1) s = out := by
  rw [execFor_next (t := k (s.emit (.cmd i))) (by rw [he]; rfl), h]

/-- A write of the running command answered `ok`, then the rest. -/
theorem run_write_ok {i : Instr} {n : Nat} {s : State} {out : Out} {p : Pos} {a : Addr} {bytes : List Byte}
    {k : State → State} (hp : s.pc = .running p) (hi : p.command = i) (hc : i.isCommand = true)
    (ha : actionAt p s = .write a bytes k) (hl : legalBurst s.cfg a bytes.length = true) (ho : s.okAt 0 = true)
    (h : execFor i n (k (s.afterWrite a bytes)) = out) : execFor i (n + 1) s = out := by
  subst hi
  rw [execFor_next ((exec_command hp hc).trans (by rw [ha]; exact memWrite_ok hl ho)), h]

/-- A write of the running command answered `fail`, then the rest. -/
theorem run_write_fail {i : Instr} {n : Nat} {s : State} {out : Out} {p : Pos} {a : Addr} {bytes : List Byte}
    {k : State → State} (hp : s.pc = .running p) (hi : p.command = i) (hc : i.isCommand = true)
    (ha : actionAt p s = .write a bytes k) (hl : legalBurst s.cfg a bytes.length = true) (ho : s.okAt 0 = false)
    (h : execFor i n ((s.afterWrite a bytes).raise i .spiWriteError) = out) : execFor i (n + 1) s = out := by
  subst hi
  rw [execFor_next ((exec_command hp hc).trans (by rw [ha]; exact memWrite_fail hl ho)), h]

/-- A read of the running command answered with bytes, then the rest. -/
theorem run_read_ok {i : Instr} {n : Nat} {s : State} {out : Out} {p : Pos} {a : Addr} {m : Nat} {bytes : List Byte}
    {k : List Byte → State → State} (hp : s.pc = .running p) (hi : p.command = i) (hc : i.isCommand = true)
    (ha : actionAt p s = .read a m k) (hl : legalBurst s.cfg a m = true) (hd : s.dataAt 0 m = some bytes)
    (h : execFor i n (k bytes (s.afterRead a m)) = out) : execFor i (n + 1) s = out := by
  subst hi
  rw [execFor_next ((exec_command hp hc).trans (by rw [ha]; exact memRead_ok hl hd)), h]

/-- A read of the running command answered `fail`, then the rest. -/
theorem run_read_fail {i : Instr} {n : Nat} {s : State} {out : Out} {p : Pos} {a : Addr} {m : Nat}
    {k : List Byte → State → State} (hp : s.pc = .running p) (hi : p.command = i) (hc : i.isCommand = true)
    (ha : actionAt p s = .read a m k) (hl : legalBurst s.cfg a m = true) (hd : s.dataAt 0 m = none)
    (h : execFor i n ((s.afterRead a m).raise i .spiReadError) = out) : execFor i (n + 1) s = out := by
  subst hi
  rw [execFor_next ((exec_command hp hc).trans (by rw [ha]; exact memRead_fail hl hd)), h]

/-- A delay of the running command, then the rest. -/
theorem run_delay {i : Instr} {n : Nat} {s : State} {out : Out} {p : Pos} {d : Delay} {k : State → State}
    (hp : s.pc = .running p) (hi : p.command = i) (hc : i.isCommand = true) (ha : actionAt p s = .delay d k)
    (h : execFor i n (k (s.emit (.delay d))) = out) : execFor i (n + 1) s = out := by
  subst hi
  rw [execFor_next ((exec_command hp hc).trans (by rw [ha]; rfl)), h]

/-- `RstHigh` of the running command, then the rest. -/
theorem run_high {i : Instr} {n : Nat} {s : State} {out : Out} {p : Pos} {k : State → State}
    (hp : s.pc = .running p) (hi : p.command = i) (hc : i.isCommand = true) (ha : actionAt p s = .lineHigh k)
    (h : execFor i n (if s.okAt 0 then k s.afterHigh else s.afterHigh.raise i .resetError) = out) :
    execFor i (n + 1) s = out := by
  subst hi
  rw [execFor_next ((exec_command hp hc).trans (by rw [ha]; rfl)), h]

/-- `RstLow` of the running command, then the rest. -/
theorem run_low {i : Instr} {n : Nat} {s : State} {out : Out} {p : Pos} {k : State → State}
    (hp : s.pc = .running p) (hi : p.command = i) (hc : i.isCommand = true) (ha : actionAt p s = .lineLow k)
    (h : execFor i n (if s.okAt 0 then k s.afterLow else s.afterLow.raise i .resetError) = out) :
    execFor i (n + 1) s = out := by
  subst hi
  rw [execFor_next ((exec_command hp hc).trans (by rw [ha]; rfl)), h]

/-- The result, after which nothing is left to run. -/
theorem run_result {i c : Instr} {r : Result} {s : State} (hp : s.pc = .running (.finish c r)) (hi : c = i)
    (hc : i.isCommand = true) : execFor i 1 s = .next ((s.emit (.res r)).toIdle) := by
  subst hi
  have h : exec c s = .next ((s.emit (.res r)).toIdle) := exec_command hp hc
  rw [execFor_next h]; rfl

end Sys2Proof.Machine
end

