-- ==== Sys2Proof/Laws/PerInstr.lean ====
section
/-! SUPPORT. Statements about every instruction as syntax, one lemma per constructor. -/

namespace Sys2Proof.Laws.TableMatch

/-- The number of an encoded instruction as spec/opcode_table.json numbers it: the bus byte or the command code. -/
def number : CodeWord → Nat
  | .bus o => o.toNat
  | .port w => w.code.toNat

/-- The `match` and `mask` of an instruction's row. -/
def row : Instr → Nat × Nat
  | .rd _ => (0x00, 0x80)
  | .wr _ => (0x80, 0x80)
  | .init => (0x0, 0xF)
  | .reset => (0x1, 0xF)
  | .setMode _ => (0x2, 0xF)
  | .setModemConfig _ => (0x3, 0xF)
  | .setSyncWords _ _ => (0x4, 0xF)
  | .setTxPower _ => (0x5, 0xF)
  | .setFrequency _ => (0x6, 0xF)
  | .send _ => (0x7, 0xF)
  | .isMessageAvailable => (0x8, 0xF)
  | .receive _ => (0x9, 0xF)
  | .readTemperature => (0xA, 0xF)
  | .rssi => (0xB, 0xF)
  | .readAllRegisters => (0xC, 0xF)

/-- The encoder puts the row's fixed bits where the table has them, and a bus instruction is on the bus, a command on
the port. -/
def Statement (i : Instr) : Prop :=
  number (encode i) &&& (row i).2 = (row i).1 ∧
  ((∃ o, encode i = .bus o) ↔ i.isCommand = false)

theorem rd (a : Addr) : Statement (.rd a) := by
  refine ⟨?_, ⟨fun _ => rfl, fun _ => ⟨_, rfl⟩⟩⟩
  revert a; decide

theorem wr (a : Addr) : Statement (.wr a) := by
  refine ⟨?_, ⟨fun _ => rfl, fun _ => ⟨_, rfl⟩⟩⟩
  revert a; decide

theorem init : Statement .init := by simp [Statement, number, row, encode, Instr.isCommand]

theorem reset : Statement .reset := by simp [Statement, number, row, encode, Instr.isCommand]

theorem setMode (target : Mode) : Statement (.setMode target) := by
  simp [Statement, number, row, encode, Instr.isCommand]

theorem setModemConfig (p : BitVec 8) : Statement (.setModemConfig p) := by
  simp [Statement, number, row, encode, Instr.isCommand]

theorem setSyncWords (policy : SyncPolicy) (words : List Byte) : Statement (.setSyncWords policy words) := by
  cases policy <;> simp [Statement, number, row, encode, Instr.isCommand]

theorem setTxPower (power : BitVec 8) : Statement (.setTxPower power) := by
  simp [Statement, number, row, encode, Instr.isCommand]

theorem setFrequency (freqMhz : BitVec 16) : Statement (.setFrequency freqMhz) := by
  simp [Statement, number, row, encode, Instr.isCommand]

theorem send (payload : List Byte) : Statement (.send payload) := by
  simp [Statement, number, row, encode, Instr.isCommand]

theorem isMessageAvailable : Statement .isMessageAvailable := by
  simp [Statement, number, row, encode, Instr.isCommand]

theorem receive (capacity : Nat) : Statement (.receive capacity) := by
  simp [Statement, number, row, encode, Instr.isCommand]

theorem readTemperature : Statement .readTemperature := by
  simp [Statement, number, row, encode, Instr.isCommand]

theorem rssi : Statement .rssi := by simp [Statement, number, row, encode, Instr.isCommand]

theorem readAllRegisters : Statement .readAllRegisters := by
  simp [Statement, number, row, encode, Instr.isCommand]

end Sys2Proof.Laws.TableMatch
end

