-- ==== Sys2Proof/Tests/Slice0.lean ====
section
/-! SUPPORT. The model's own tests: ill-formed terms refused, decoding of words written out from the encodings, single
steps against the vectors of spec/95_test_vectors.md, and for each statement with hypotheses a state and operands that
meet them. Expected results are the spec's; the answers of the chip are inputs a vector chooses. -/

namespace Sys2Proof.Tests

open Sys2Proof Sys2Proof.Machine

/-! ### A configuration and small states -/

/-- The default configuration with the test values of programs P1 to P4: table T, `INIT_*` of P4, a boosted block. -/
def cfg : Cfg :=
  { Config.block with
    presets := [⟨0x10, 0x11, 0x12, 0x13, 0x14, 0x15, 0x16, 0x17⟩, ⟨0xA0, 0xA1, 0xA2, 0xA3, 0xA4, 0xA5, 0xA6, 0xA7⟩]
    initFifoThresh := 0x8F
    initDagc := 0x30
    initLna := 0x88
    initSyncPolicy := .autoFill 0
    initSyncWords := [0x2D, 0xD4]
    initPreset := 0
    initPreamble := 0x0004
    initFreqMhz := 915
    pollDelay := .us 10
    highPowerStrap := true }

/-- The block after reset with these answers to come. -/
def idle (answers : List Answer) : State := { State.blockReset cfg with answers := answers }

/-- The block inside a command. -/
def inside (p : Pos) (answers : List Answer) : State := { idle answers with pc := .running p }

/-- The event of a step. -/
def eventOf : Out → Option Event
  | .next t => t.trace.getLast?
  | .fault _ => none
  | .refused _ => none

/-- The position after a step. -/
def pcOf : Out → Option Pc
  | .next t => some t.pc
  | .fault _ => none
  | .refused _ => none

/-- The cached power after a step. -/
def pwrOf : Out → Option Int
  | .next t => some t.pwr.toInt
  | .fault _ => none
  | .refused _ => none

/-- The cached mode after a step. -/
def modeOf : Out → Option Mode
  | .next t => some t.mode
  | .fault _ => none
  | .refused _ => none

/-- The fault of a step. -/
def faultOf : Out → Option Fault
  | .next _ => none
  | .fault f => some f
  | .refused _ => none

/-- The refusal of a step. -/
def refusalOf : Out → Option Refusal
  | .next _ => none
  | .fault _ => none
  | .refused r => some r

theorem test_cfg_valid : cfg.valid = true := by decide

/-- Item 7 of R9 is what binds the synthesizer constants; item 3 keeps the test-PA registers apart. -/
theorem test_cfg_invalid : Cfg.valid { cfg with fStepNumerator := 524289 } = false ∧
    Cfg.valid { cfg with aTestPa2 := 0x5A } = false ∧ Cfg.valid { cfg with aSyncConfig := 0x48 } = false := by decide

/-! ### Well-formedness -/

theorem test_wf_refuses_rd_outside : (Instr.rd 0x50).wellFormed = false := by decide
theorem test_wf_refuses_wr_outside : (Instr.wr 0x7F).wellFormed = false := by decide
theorem test_wf_refuses_long_words : (Instr.setSyncWords .off (List.replicate 256 0)).wellFormed = false := by
  simp [-List.reduceReplicate, Instr.wellFormed, laneFits]
theorem test_wf_refuses_long_payload : (Instr.send (List.replicate 256 0)).wellFormed = false := by
  simp [-List.reduceReplicate, Instr.wellFormed, laneFits]
theorem test_wf_accepts : (Instr.rd 0x4F).wellFormed = true ∧ (Instr.wr 0x6F).wellFormed = true ∧
    (Instr.setSyncWords .off []).wellFormed = true ∧ (Instr.send (List.replicate 255 0)).wellFormed = true := by
  simp [-List.reduceReplicate, Instr.wellFormed, laneFits, isEnumerated]

/-! ### Decoding: words written out from R80, R96, R97 -/

theorem test_decode_rd : decode (.bus 0b01011010#8) = .ok (.rd 0x5A) := by decide
theorem test_decode_wr : decode (.bus 0b10010001#8) = .ok (.wr 0x11) := by decide
theorem test_decode_init : decode (.port { code := 0b0000#4 }) = .ok .init := by decide
theorem test_decode_reset : decode (.port { code := 0b0001#4 }) = .ok .reset := by decide
theorem test_decode_setMode : decode (.port { code := 0b0010#4, mode := 0b100#3 }) = .ok (.setMode .receive) := by decide
theorem test_decode_setModemConfig : decode (.port { code := 0b0011#4, preset := 1 }) = .ok (.setModemConfig 1) := by
  decide
theorem test_decode_setSyncWords :
    decode (.port { code := 0b0100#4, policyTag := 1, tolerance := 14, words := [0x2D, 0xD4] }) =
      .ok (.setSyncWords (.autoFill 14) [0x2D, 0xD4]) := by decide
theorem test_decode_setTxPower : decode (.port { code := 0b0101#4, power := 0xFB }) = .ok (.setTxPower (-5)) := by decide
theorem test_decode_setFrequency :
    decode (.port { code := 0b0110#4, freqMhz := 0x0393 }) = .ok (.setFrequency 915) := by decide
theorem test_decode_send : decode (.port { code := 0b0111#4, payload := [0x48, 0x69] }) = .ok (.send [0x48, 0x69]) := by
  decide
theorem test_decode_isMessageAvailable : decode (.port { code := 0b1000#4 }) = .ok .isMessageAvailable := by decide
theorem test_decode_receive : decode (.port { code := 0b1001#4, capacity := 300 }) = .ok (.receive 300) := by decide
theorem test_decode_readTemperature : decode (.port { code := 0b1010#4 }) = .ok .readTemperature := by decide
theorem test_decode_rssi : decode (.port { code := 0b1011#4 }) = .ok .rssi := by decide
theorem test_decode_readAllRegisters : decode (.port { code := 0b1100#4 }) = .ok .readAllRegisters := by decide
theorem test_decode_refuses : decode (.port { code := 0b1101#4 }) = .error .reservedCommandCode ∧
    decode (.port { code := 0b1111#4 }) = .error .reservedCommandCode ∧
    decode (.port { code := 0b0010#4, mode := 0b101#3 }) = .error .illegalModeTag ∧
    decode (.port { code := 0b0100#4, policyTag := 0b11#2 }) = .error .illegalPolicyTag := by decide

/-- 255 bytes fit a list lane, 256 do not (R97). -/
theorem test_decode_lane : decode (.port { code := 0b0111#4, payload := List.replicate 256 0 }) =
      .error .listLaneTooLong ∧
    decode (.port { code := 0b0111#4, payload := List.replicate 255 0 }) = .ok (.send (List.replicate 255 0)) := by
  simp [-List.reduceReplicate, decode, decodeCmd, decodeLane, laneFits, Except.map]

/-- The table's numbering: a command code, a bus byte of each direction. -/
theorem test_table_words : decodeTableWord 8 0x7 = some (.send []) ∧ decodeTableWord 8 0x80 = some (.wr 0) ∧
    decodeTableWord 8 0x24 = some (.rd 0x24) ∧ decodeTableWord 4 0xE = none := by decide

/-! ### The calculators (S1 to S18, sections 2.1 to 2.7) -/

theorem test_opcodes : rdOp 0x6F = 0x6F ∧ wrOp 0x6F = 0xEF ∧ rdOp 0xA7 = 0x27 ∧ wrOp 0x27 = 0xA7 := by decide

theorem test_syncByte : syncByte .off 200 = 0x00 ∧ syncByte (.autoFill 0) 8 = 0xB8 ∧ syncByte (.manualFill 0) 8 = 0xF8 ∧
    syncByte (.manualFill 7) 8 = 0xFF ∧ syncByte (.autoFill 14) 8 = 0xBF ∧ syncByte (.manualFill 5) 3 = 0xD5 ∧
    syncByte (.autoFill 0) 0 = 0x80 ∧ syncByte (.autoFill 0) 9 = 0xB8 := by decide

theorem test_paByte_boosted : paByte cfg (-128) true = 0x50 ∧ paByte cfg (-2) true = 0x50 ∧ paByte cfg 13 true = 0x5F ∧
    paByte cfg 14 true = 0x7C ∧ paByte cfg 17 true = 0x7F ∧ paByte cfg 18 true = 0x7D ∧ paByte cfg 20 true = 0x7F ∧
    paByte cfg 127 true = 0x7F := by decide

theorem test_paByte_normal : paByte cfg (-19) false = 0x80 ∧ paByte cfg (-18) false = 0x80 ∧
    paByte cfg (-1) false = 0x91 ∧ paByte cfg 13 false = 0x9F ∧ paByte cfg 20 false = 0x9F := by decide

theorem test_frfBytes : frfBytes cfg 915 = some [0xE4, 0xC0, 0x00] ∧ frfBytes cfg 433 = some [0x6C, 0x40, 0x00] ∧
    frfBytes cfg 1023 = some [0xFF, 0xC0, 0x00] ∧ frfBytes cfg 1024 = none ∧ frfBytes cfg 65535 = none := by decide

/-- The other legal pair of constants of section 2.5 shows the truncation. -/
theorem test_frfBytes_truncates :
    frfBytes { cfg with fStepNumerator := 16384001, fOscDenominator := 1000 } 1000 = some [0xFA, 0x00, 0x01] ∧
    frfBytes { cfg with fStepNumerator := 16384001, fOscDenominator := 1000 } 915 = some [0xE4, 0xC0, 0x00] := by decide

theorem test_modeByte : modeByte 0x04 3 = 0x0C ∧ modeByte 0xFF 1 = 0xE7 ∧ modeByte 0x9C 4 = 0x90 := by decide

theorem test_frame : frame [0x48, 0x69] = [0x06, 0xFF, 0xFF, 0x00, 0x00, 0x48, 0x69] ∧
    frame [] = [0x04, 0xFF, 0xFF, 0x00, 0x00] ∧ (frame (List.replicate 60 0)).head? = some 0x40 := by decide

theorem test_celsius : celsiusOf 0x8D = 25 ∧ celsiusOf 0x00 = 166 ∧ celsiusOf 0xFF = -89 ∧ celsiusOf 0xA7 = -1 := by
  decide

theorem test_status_codes : (Result.ok .unit).status = 0 ∧ (Result.err .resetError).status = 1 ∧
    (Result.err .configurationError).status = 4 ∧ (Result.err .invalidMode).status = 6 := by decide

/-! ### Single steps -/

/-- `read_temperature` reads `A_TEMP2`: wire byte 4F. -/
theorem test_rd : eventOf (exec (.rd 0x4F) (inside (.readTemperature .raw) [.ok [0x8D]])) =
      some (.busR 0x4F 1 (some [0x8D])) ∧ Event.wire (.busR 0x4F 1 (some [0x8D])) = [0x4F] := by decide
theorem test_rd_elsewhere : refusalOf (exec (.rd 0x24) (idle [])) = some .noSuchTransaction ∧
    refusalOf (exec (.rd 0x4F) (inside .rssi [])) = some .noSuchTransaction := by decide

/-- Wire `91 7F`. -/
theorem test_wr : eventOf (exec (.wr 0x11) (inside (.setTxPower 20) [.ok []])) = some (.busW 0x11 [0x7F] true) ∧
    Event.wire (.busW 0x11 [0x7F] true) = [0x91, 0x7F] := by decide
theorem test_wr_elsewhere : refusalOf (exec (.wr 0x24) (inside .rssi [])) = some .noSuchTransaction := by decide

/-- P4b: version byte 00 is no 24. -/
theorem test_init_version : pcOf (exec .init (inside (.init .version) [.ok [0x00]])) =
      some (.running (.finish .init (.err .spiReadError))) ∧
    pcOf (exec .init (inside (.init .version) [.ok [0x24]])) = some (.running (.init .fifoThresh)) := by decide
/-- P4 steps 9 and 10: the preamble, and 13 cached before the PA byte 5F goes out. -/
theorem test_init_preamble :
    eventOf (exec .init (inside (.init .preamble) [.ok []])) = some (.busW 0x2C [0x00, 0x04] true) ∧
    pwrOf (exec .init { inside (.init .preamble) [.ok []] with pwr := 20 }) = some 13 ∧
    eventOf (exec .init (inside (.init .txPower) [.ok []])) = some (.busW 0x11 [0x5F] true) := by decide

theorem test_reset_low : eventOf (exec .reset (inside (.reset .hold) [])) = some (.delay (.us 100)) ∧
    pcOf (exec .reset (inside (.reset .low) [.fail])) = some (.running (.finish .reset (.err .resetError))) := by decide

/-- 18 is at the threshold, 17 below it; Sleep never boosts. -/
theorem test_setMode_threshold :
    pcOf (exec (.setMode .transmit) { idle [] with pwr := 18 }) = some (.running (.setMode .transmit .testPa1)) ∧
    pcOf (exec (.setMode .transmit) { idle [] with pwr := 17 }) = some (.running (.setMode .transmit .readMode)) ∧
    pcOf (exec (.setMode .sleep) { idle [] with pwr := 18 }) = some (.running (.setMode .sleep .readMode)) := by decide
/-- 7F has every bit but mode-ready; the cache changes with 80. -/
theorem test_setMode_ready :
    modeOf (exec (.setMode .receive) (inside (.setMode .receive (.ready .poll)) [.ok [0x7F]])) = some .standby ∧
    modeOf (exec (.setMode .receive) (inside (.setMode .receive (.ready .poll)) [.ok [0x80]])) = some .receive := by
  decide

theorem test_setModemConfig_bandwidth :
    eventOf (exec (.setModemConfig 1) (inside (.setModemConfig 1 .bandwidth) [.ok []])) =
      some (.busW 0x19 [0xA5, 0xA6] true) := by decide
theorem test_setModemConfig_outside : refusalOf (exec (.setModemConfig 2) (idle [])) = some .presetNotInTable := by
  decide

theorem test_setSyncWords_burst :
    eventOf (exec (.setSyncWords (.autoFill 9) [0x2D]) (inside (.setSyncWords (.autoFill 9) [0x2D]) [.ok []])) =
      some (.busW 0x2E [0x87, 0x2D] true) := by decide
theorem test_setSyncWords_empty : pcOf (exec (.setSyncWords .off []) (idle [])) =
    some (.running (.finish (.setSyncWords .off []) (.err .configurationError))) := by decide

/-- -5 is cached, not -2; 25 is cached, not 20. -/
theorem test_setTxPower_cache : pwrOf (exec (.setTxPower 0xFB) (idle [])) = some (-5) ∧
    pwrOf (exec (.setTxPower 25) (idle [])) = some 25 := by decide
theorem test_setTxPower_write : eventOf (exec (.setTxPower 0xFB) (inside (.setTxPower 0xFB) [.ok []])) =
    some (.busW 0x11 [0x50] true) := by decide

theorem test_setFrequency_write : eventOf (exec (.setFrequency 868) (inside (.setFrequency 868) [.ok []])) =
    some (.busW 0x07 [0xD9, 0x00, 0x00] true) := by decide
theorem test_setFrequency_outside : refusalOf (exec (.setFrequency 1024) (idle [])) = some .frequencyWordTooLarge := by
  decide

theorem test_send_oversize : pcOf (exec (.send (List.replicate 61 0)) (idle [])) =
    some (.running (.finish (.send (List.replicate 61 0)) (.err .messageTooLarge))) := by decide
/-- P2c: a failed packet-sent poll ends the command and leaves the cache at Transmit. -/
theorem test_send_poll_fails :
    pcOf (exec (.send []) { inside (.send [] (.sent .poll)) [.fail] with mode := .transmit }) =
      some (.running (.finish (.send []) (.err .spiReadError))) ∧
    modeOf (exec (.send []) { inside (.send [] (.sent .poll)) [.fail] with mode := .transmit }) = some .transmit := by
  decide

/-- FB has every bit but the tested one. -/
theorem test_isMessageAvailable_bit :
    pcOf (exec .isMessageAvailable (inside .isMessageAvailable [.ok [0xFB]])) =
      some (.running (.finish .isMessageAvailable (.ok (.flag false)))) := by decide
theorem test_isMessageAvailable_mode : pcOf (exec .isMessageAvailable (idle [])) =
    some (.running (.finish .isMessageAvailable (.err .invalidMode))) := by decide

/-- 6 is above 5 and not above 6; 3 above 2 is `MessageTooLarge` before it is too short. -/
theorem test_receive_length :
    pcOf (exec (.receive 5) (inside (.receive 5 .length) [.ok [0x06]])) =
      some (.running (.finish (.receive 5) (.err .messageTooLarge))) ∧
    pcOf (exec (.receive 6) (inside (.receive 6 .length) [.ok [0x06]])) =
      some (.running (.receive 6 (.header 0x06))) ∧
    pcOf (exec (.receive 2) (inside (.receive 2 .length) [.ok [0x03]])) =
      some (.running (.finish (.receive 2) (.err .messageTooLarge))) := by decide
theorem test_receive_underflow :
    faultOf (exec (.receive 0) (inside (.receive 0 .underflow) [])) = some .lengthUnderflow ∧
    pcOf (exec (.receive 0) (inside (.receive 0 .length) [.ok [0x00]])) = some (.running (.receive 0 .underflow)) := by
  decide

theorem test_readTemperature_start : eventOf (exec .readTemperature (inside (.readTemperature .start) [.ok []])) =
    some (.busW 0x4E [0x08] true) := by decide
/-- FB has every bit but the running bit, so the wait is over. -/
theorem test_readTemperature_clear :
    pcOf (exec .readTemperature (inside (.readTemperature (.running .poll)) [.ok [0xFB]])) =
      some (.running (.readTemperature .raw)) := by decide

theorem test_rssi_halves : pcOf (exec .rssi (inside .rssi [.ok [0xB4]])) =
    some (.running (.finish .rssi (.ok (.halfDecibels 0xB4)))) := by decide

/-- The last of the four single reads, at 6F, ends the list of 84. -/
theorem test_readAllRegisters_order :
    eventOf (exec .readAllRegisters
      (inside (.readAllRegisters (.aux6F (List.replicate 80 0) 0x58 0x5A 0x5C)) [.ok [0x6F]])) =
      some (.busR 0x6F 1 (some [0x6F])) ∧
    (dumpPairs (List.replicate 80 0) 0x58 0x5A 0x5C 0x6F).length = 84 ∧
    (dumpPairs (List.replicate 80 0) 0x58 0x5A 0x5C 0x6F)[81]? = some (0x5A, 0x5A) := by decide

/-- Code 0xE: refused at the port, no event (P6 row 10). -/
theorem test_step_reserved : refusalOf (step { idle [] with port := [{ code := 0xE }] }) =
    some (.illegalCommandWord .reservedCommandCode) := by decide

/-! ### States and operands that meet the hypotheses of the statements -/

theorem witness_BusOpcodesDifferInBitSevenOnly : (0x80#8).getLsbD 7 = true ∧ (0x7F#8).getLsbD 7 = false ∧
    rdOp (addrByte 0x7F) = rdOp (addrByte 0x7F) := by decide

theorem witness_DecodeOfEncodeIsTheInstruction : (Instr.setSyncWords (.manualFill 0xFF) (List.replicate 255 0)).wellFormed =
    true ∧ (Instr.receive 70000).wellFormed = true ∧ (Instr.rd 0x6F).wellFormed = true := by
  simp [-List.reduceReplicate, Instr.wellFormed, laneFits, isEnumerated]

/-- Each clause at its boundary: code 13, mode tag 5, policy tag 3, preset 2 of two, 1024 MHz. -/
theorem witness_PortRefusesReservedAndIllegalWords :
    (idle []).pc = .idle ∧ { idle [] with port := [{ code := 13 }] }.port = [{ code := 13 }] ∧
    13 ≤ (CmdWord.mk 13 0 0 0 0 [] 0 0 [] 0).code.toNat ∧ 5 ≤ (CmdWord.mk 2 5 0 0 0 [] 0 0 [] 0).mode.toNat ∧
    (CmdWord.mk 4 0 0 3 0 [] 0 0 [] 0).policyTag = 3 ∧
    (idle []).cfg.presets.length ≤ (CmdWord.mk 3 0 2 0 0 [] 0 0 [] 0).preset.toNat ∧
    2 ^ 24 ≤ (1024#16).toNat * (idle []).cfg.fStepNumerator / (idle []).cfg.fOscDenominator := by decide

theorem witness_StepRunsTheDecodedCommand : (idle []).pc = .idle ∧ (idle []).port = [] ∧
    { idle [] with port := [{ code := 0xB }] }.port = [{ code := 0xB }] ∧
    decode (.port { code := 0xB }) = .ok .rssi := by decide

theorem witness_StepInsideACommandRunsTheInstructionThere :
    (inside .rssi []).pc = .running .rssi ∧ Pos.rssi.command.isCommand = true ∧
    (∃ k, actionAt .rssi (inside .rssi []) = .read 0x24 1 k) ∧
    (∃ k, actionAt (.setTxPower 20) (inside (.setTxPower 20) []) = .write 0x11 [0x7F] k) :=
  ⟨rfl, rfl, ⟨_, rfl⟩, ⟨_, rfl⟩⟩

/-- A read at the FIFO address, longer than the registers that follow it, and a place with no read. -/
theorem witness_ReadOpcodeCompletesAsOneTransaction :
    (inside (.receive 255 (.payload 0xFF)) []).pc = .running (.receive 255 (.payload 0xFF)) ∧
    (∃ k, actionAt (.receive 255 (.payload 0xFF)) (inside (.receive 255 (.payload 0xFF)) []) = .read 0x00 251 k) ∧
    legalBurst cfg 0x00 251 = true ∧
    (∀ n k, actionAt (.setTxPower 20) (inside (.setTxPower 20) []) ≠ .read 0x24 n k) ∧ (idle []).pc = .idle :=
  ⟨rfl, ⟨_, rfl⟩, by decide, fun _ _ h => (nomatch h), rfl⟩

/-- A burst of nine, and a place with no write. -/
theorem witness_WriteOpcodeCompletesAsOneTransaction :
    (∃ k, actionAt (.setSyncWords .off [1, 2, 3, 4, 5, 6, 7, 8]) (inside (.setSyncWords .off [1, 2, 3, 4, 5, 6, 7, 8]) []) =
      .write 0x2E [0, 1, 2, 3, 4, 5, 6, 7, 8] k) ∧
    legalBurst cfg 0x2E 9 = true ∧ (∀ bytes k, actionAt .rssi (inside .rssi []) ≠ .write 0x24 bytes k) ∧
    (idle []).pc = .idle :=
  ⟨⟨_, rfl⟩, by decide, fun _ _ h => (nomatch h), rfl⟩

/-- The last preset, no word, one, eight and nine, 1023 MHz, 60 and 61 bytes, Transmit at 18 and at 17 dBm. -/
theorem witness_EveryCommandIsAcceptedAtIdle : (idle []).pc = .idle ∧ Mode.sleep ≠ (idle []).mode ∧
    (1#8).toNat < (idle []).cfg.presets.length ∧ 1 ≤ [0x2D#8].length ∧ (List.replicate 8 0x2D#8).length ≤ 8 ∧
    (1023#16).toNat * (idle []).cfg.fStepNumerator / (idle []).cfg.fOscDenominator < 2 ^ 24 ∧
    (List.replicate 60 0x00#8).length ≤ 60 ∧ { idle [] with mode := .receive }.mode = .receive ∧
    Mode.transmit ≠ (idle []).mode ∧ 18 ≤ { idle [] with pwr := 18 }.pwr.toInt ∧
    ¬ ((Mode.transmit = .transmit ∨ Mode.transmit = .receive) ∧ 18 ≤ { idle [] with pwr := 17 }.pwr.toInt) ∧
    ([] : List Byte).length = 0 ∧ 8 < (List.replicate 9 0x2D#8).length ∧ 60 < (List.replicate 61 0x00#8).length ∧
    (idle []).mode ≠ .receive := by decide

theorem witness_BusyBlockRefusesAnotherCommand : (inside .rssi []).pc = .running .rssi ∧ Instr.isCommand .reset = true ∧
    Instr.reset ≠ Pos.rssi.command := by decide

/-- A next state with an event of each kind: a command, a transaction. -/
theorem witness_EachInstructionEmitsExactlyOneEvent : (∃ t, exec .rssi (idle []) = .next t) ∧
    (∃ t, exec (.rd 0x24) (inside .rssi [.ok [0xB4]]) = .next t) ∧ takesAnswer (.busR 0x24 1 none) = true ∧
    takesAnswer (.delay (.us 1)) = false :=
  ⟨⟨_, rfl⟩, ⟨_, rfl⟩, rfl, rfl⟩

/-- A burst inside the core bank, and a read at the FIFO address. -/
theorem witness_OnlyEnumeratedAddressesAreEmitted :
    (∃ t, exec (.setSyncWords .off [1]) (inside (.setSyncWords .off [1]) [.ok []]) = .next t ∧
      t.trace = (inside (.setSyncWords .off [1]) [.ok []]).trace ++ [.busW 0x2E [0, 1] true]) ∧
    (∃ t, exec (.receive 16) (inside (.receive 16 (.header 6)) [.ok [0xFF, 0xFF, 0, 0]]) = .next t ∧
      t.trace = (inside (.receive 16 (.header 6)) [.ok [0xFF, 0xFF, 0, 0]]).trace ++
        [.busR 0x00 4 (some [0xFF, 0xFF, 0, 0])]) :=
  ⟨⟨_, rfl, by decide⟩, ⟨_, rfl, by decide⟩⟩

theorem witness_TopologyFlagAndConfigurationNeverChange : ∃ t, exec .reset (idle []) = .next t := ⟨_, rfl⟩

theorem witness_CachedModeChangesOnlyWhenModeReadyIsSeen :
    ∃ t, exec (.setMode .receive) (inside (.setMode .receive (.ready .poll)) [.ok [0x80]]) = .next t ∧
      t.mode ≠ (inside (.setMode .receive (.ready .poll)) [.ok [0x80]]).mode :=
  ⟨_, rfl, by decide⟩

theorem witness_CachedPowerIsWrittenOnlyBySetTxPower :
    (∃ t, exec (.setTxPower 20) (idle []) = .next t ∧ t.pwr ≠ (idle []).pwr) ∧
    (∃ t, exec .init { inside (.init .preamble) [.ok []] with pwr := 20 } = .next t ∧ t.pwr ≠ 20) :=
  ⟨⟨_, rfl, by decide⟩, ⟨_, rfl, by decide⟩⟩

theorem witness_ResetLineChangesOnlyByAnAcknowledgedDrive :
    ∃ t, exec .reset (inside (.reset .high) [.ok []]) = .next t ∧ t.line ≠ (inside (.reset .high) [.ok []]).line :=
  ⟨_, rfl, by decide⟩

/-- A write that reaches the register, and a chip reset that forgets it. -/
theorem witness_RegisterRecordChangesOnlyWhereWritten :
    (∃ t, exec (.setTxPower 20) (inside (.setTxPower 20) [.ok []]) = .next t ∧
      Memory.read 0x11 t.chip ≠ Memory.read 0x11 (inside (.setTxPower 20) [.ok []]).chip) ∧
    (∃ t, exec .reset { inside (.reset .high) [.ok []] with chip := [(0x11, 0x7F)] } = .next t ∧
      Memory.read 0x11 t.chip ≠ Memory.read 0x11 [(0x11, 0x7F)]) :=
  ⟨⟨_, rfl, by decide⟩, ⟨_, rfl, by decide⟩⟩

/-- The first and the last byte of a burst, both sides of it, and the FIFO address. -/
theorem witness_BurstWritesConsecutiveRegisters : Memory.wf (idle []).chip ∧ (0x02 : Addr) ≠ (idle []).cfg.aFifo ∧
    (0x00 : Addr) = (idle []).cfg.aFifo ∧ 0 < [1#8, 2#8].length ∧ 1 < [1#8, 2#8].length ∧
    1 < (0x02 : Addr).toNat ∧ (0x02 : Addr).toNat + [1#8, 2#8].length ≤ 4 := by decide

theorem witness_InvariantHoldsAfterBlockReset : cfg.valid = true := by decide

/-- Inside `receive`, past its checks, at both ends of the length range. -/
theorem witness_EveryStepKeepsTheInvariant :
    (inside (.receive 64 (.header 4)) [.ok []]).Inv ∧ (inside (.receive 64 (.header 64)) [.ok []]).Inv ∧
    (∃ t, step (inside (.receive 64 (.header 4)) [.ok []]) = .next t) :=
  ⟨⟨by decide, by decide, (by decide : 4 ≤ (4#8).toNat ∧ (4#8).toNat ≤ 64)⟩,
    ⟨by decide, by decide, (by decide : 4 ≤ (64#8).toNat ∧ (64#8).toNat ≤ 64)⟩, ⟨_, rfl⟩⟩

/-- A position that goes on, and the one that does not. -/
theorem witness_RunningCommandNeverStopsExceptOnUnderflow :
    ((inside (.readTemperature .raw) []).Inv ∧ (inside (.readTemperature .raw) []).pc = .running (.readTemperature .raw)) ∧
    ((inside (.receive 0 .underflow) []).Inv ∧ (inside (.receive 0 .underflow) []).pc = .running (.receive 0 .underflow)) :=
  ⟨⟨⟨by decide, by decide, trivial⟩, rfl⟩, ⟨⟨by decide, by decide, trivial⟩, rfl⟩⟩

theorem witness_FailedAnswerRaisesItsErrorAtOnce :
    (inside .rssi [.fail]).okAt 0 = false ∧ legalBurst cfg 0x24 1 = true ∧ legalBurst cfg 0x11 1 = true ∧
    (∃ k, actionAt .rssi (inside .rssi [.fail]) = .read 0x24 1 k) ∧
    (∃ k, actionAt (.init .txPower) (inside (.init .txPower) [.fail]) = .write 0x11 [0x5F] k) ∧
    (∃ k, actionAt (.init (.pulse .high)) (inside (.init (.pulse .high)) [.fail]) = .lineHigh k) ∧
    (∃ k, actionAt (.reset .low) (inside (.reset .low) [.fail]) = .lineLow k) :=
  ⟨by decide, by decide, by decide, ⟨_, rfl⟩, ⟨_, rfl⟩, ⟨_, rfl⟩, ⟨_, rfl⟩⟩

theorem witness_ResultIsEmittedAndTheBlockIsIdle :
    (inside (.finish .rssi (.err .spiReadError)) []).pc = .running (.finish .rssi (.err .spiReadError)) ∧
    Instr.isCommand .rssi = true := by decide

/-- The branch boundaries 13, 14, 17, 18 and both clamps. -/
theorem witness_PaControlByteIsEnableBitsPlusOffset : cfg.valid = true ∧ clamp (-128) (-2) 20 ≤ 13 ∧
    clamp 13 (-2) 20 ≤ 13 ∧ 14 ≤ clamp 14 (-2) 20 ∧ clamp 17 (-2) 20 ≤ 17 ∧ 18 ≤ clamp 18 (-2) 20 ∧
    18 ≤ clamp 127 (-2) 20 := by decide

theorem witness_SyncConfigurationByteCarriesItsFields : 0x80#8 = syncByte (.autoFill 0) 0 ∧
    0xFF#8 = syncByte (.manualFill 255) 255 := by decide

theorem witness_SynthesizerBytesAreTheTruncatedQuotient :
    (1023#16).toNat * cfg.fStepNumerator / cfg.fOscDenominator < 2 ^ 24 ∧
    2 ^ 24 ≤ (1024#16).toNat * cfg.fStepNumerator / cfg.fOscDenominator ∧ (0#16).toNat ≤ (0#16).toNat ∧
    cfg.valid = true ∧ cfg.fStepNumerator = 524288 ∧ cfg.fOscDenominator = 32 := by decide

theorem witness_FrameIsLengthHeaderPayload : (List.replicate 60 0xAA#8).length ≤ 60 := by decide

theorem witness_SetFrequencyWritesTheWordInOneBurst : (idle [.fail]).cfg.valid = true ∧ (idle [.fail]).pc = .idle ∧
    (1023#16).toNat * (idle [.fail]).cfg.fStepNumerator / (idle [.fail]).cfg.fOscDenominator < 2 ^ 24 ∧
    2 ^ 24 ≤ (1024#16).toNat * (idle [.fail]).cfg.fStepNumerator / (idle [.fail]).cfg.fOscDenominator := by decide

theorem witness_SetTxPowerCachesVerbatimAndWritesThePaByte : (idle [.ok []]).cfg.valid = true ∧
    (idle [.ok []]).pc = .idle := by decide

theorem witness_SetSyncWordsWritesOneBurstOrRejectsTheCount : (idle []).cfg.valid = true ∧ (idle []).pc = .idle ∧
    1 ≤ (List.replicate 8 0#8).length ∧ (List.replicate 8 0#8).length ≤ 8 ∧ ([] : List Byte).length = 0 ∧
    8 < (List.replicate 9 0#8).length := by decide

/-- The two presets, a third that is none, and a failure of the second or the first write. -/
theorem witness_SetModemConfigRoutesThePresetInThreeWrites : (idle []).cfg.valid = true ∧ (idle []).pc = .idle ∧
    (idle []).cfg.presets.length ≤ (2#8).toNat ∧
    (idle []).cfg.presets[(1#8).toNat]? = some ⟨0xA0, 0xA1, 0xA2, 0xA3, 0xA4, 0xA5, 0xA6, 0xA7⟩ ∧
    (idle [.ok [], .ok [], .fail]).okAt 1 = true ∧ (idle [.ok [], .fail]).okAt 0 = true ∧
    (idle [.ok [], .fail]).okAt 1 = false ∧ (idle [.fail]).okAt 0 = false := by decide

theorem witness_ResetPulsesTheLineAndKeepsTheCaches : (idle []).pc = .idle ∧ (idle [.ok [], .ok []]).okAt 0 = true ∧
    (idle [.ok [], .ok []]).okAt 1 = true ∧ (idle [.ok [], .fail]).okAt 1 = false ∧ (idle [.fail]).okAt 0 = false := by
  decide

theorem witness_SetModeToTheCachedModeIsNoEvent : (idle []).pc = .idle := by decide

/-- Standby with 20 dBm to Transmit, ready at the third poll: two test-PA writes, the field, two unready polls. -/
theorem witness_SetModeWritesTheFieldAndWaitsForModeReady :
    let s := { idle [.ok [], .ok [], .ok [0x04], .ok [], .ok [0x00], .ok [0x7F], .ok [0x80]] with pwr := 20 }
    s.cfg.valid = true ∧ s.pc = .idle ∧ Mode.transmit ≠ s.mode ∧ (testPaWrites s.cfg s.pwr .transmit).length = 2 ∧
    (∀ k < 2, s.okAt k = true) ∧ s.dataAt 2 1 = some [0x04] ∧ s.okAt 3 = true ∧
    (∀ (k : Nat) (h : k < [0x00#8, 0x7F#8].length), s.dataAt (4 + k) 1 = some [[0x00#8, 0x7F#8][k]] ∧
      [0x00#8, 0x7F#8][k] &&& s.cfg.mModeReady = 0#8) ∧
    s.dataAt 6 1 = some [0x80] ∧ 0x80#8 &&& s.cfg.mModeReady ≠ 0#8 := by decide

theorem witness_FailedModeReadyPollKeepsTheOldCachedMode :
    let s := idle [.ok [0x04], .ok [], .fail]
    s.cfg.valid = true ∧ s.pc = .idle ∧ Mode.transmit ≠ s.mode ∧ s.pwr.toInt < 18 ∧ s.dataAt 0 1 = some [0x04] ∧
    s.okAt 1 = true ∧ s.okAt 2 = false := by decide

/-- At every position (the six waits among them) two polls that show neither bit; a measurement still running. -/
theorem witness_NoWaitEverTimesOut :
    (∀ p : Pos, (inside p [.ok [0x00], .ok [0x00]]).pc = .running p) ∧ cfg.valid = true ∧
    (∀ (k : Nat) (h : k < [0x00#8, 0x00#8].length), (idle [.ok [0x00], .ok [0x00]]).dataAt k 1 = some [[0x00#8, 0x00#8][k]]) ∧
    (∀ b ∈ [0x00#8, 0x00#8], b &&& cfg.mModeReady = 0#8 ∧ b &&& cfg.mPacketSent = 0#8) ∧
    (∀ (k : Nat) (h : k < [0x04#8].length), (idle [.ok [0x04]]).dataAt k 1 = some [[0x04#8][k]]) ∧
    (∀ b ∈ [0x04#8], b &&& cfg.mTempRunning ≠ 0#8) :=
  ⟨fun _ => rfl, by decide, by decide, by decide, by decide, by decide⟩

/-- The answers of P4. -/
def initAnswers : List Answer := [.ok [], .ok [], .ok [0x24]] ++ List.replicate 12 (.ok [])

theorem witness_InitFromStandbyProgramsTheChip : (idle initAnswers).cfg.valid = true ∧ (idle initAnswers).pc = .idle ∧
    (idle initAnswers).mode = .standby ∧
    (idle initAnswers).cfg.presets[(idle initAnswers).cfg.initPreset.toNat]? =
      some ⟨0x10, 0x11, 0x12, 0x13, 0x14, 0x15, 0x16, 0x17⟩ ∧
    frfBytes (idle initAnswers).cfg (idle initAnswers).cfg.initFreqMhz = some [0xE4, 0xC0, 0x00] ∧
    (idle initAnswers).okAt 0 = true ∧ (idle initAnswers).okAt 1 = true ∧
    (idle initAnswers).dataAt 2 1 = some [(idle initAnswers).cfg.versionByte] ∧
    (∀ k < 12, (idle initAnswers).okAt (3 + k) = true) := by decide

/-- P5: from Receive. -/
theorem witness_InitEndsWithARealTransitionFromAnotherMode :
    let s := { inside (.init .frequency) [.ok [], .ok [0x10], .ok [], .ok [0x80]] with mode := .receive }
    s.cfg.valid = true ∧ s.pc = .running (.init .frequency) ∧ s.mode ≠ .standby ∧
    frfBytes s.cfg s.cfg.initFreqMhz = some [0xE4, 0xC0, 0x00] ∧ s.okAt 0 = true ∧ s.dataAt 1 1 = some [0x10] ∧
    s.okAt 2 = true ∧ s.dataAt 3 1 = some [0x80] ∧ 0x80#8 &&& s.cfg.mModeReady ≠ 0#8 := by decide

theorem witness_InitStopsAtAVersionMismatch :
    let s := idle [.ok [], .ok [], .ok [0x00]]
    s.cfg.valid = true ∧ s.pc = .idle ∧ s.okAt 0 = true ∧ s.okAt 1 = true ∧ s.dataAt 2 1 = some [0x00] ∧
    0x00#8 ≠ s.cfg.versionByte := by decide

theorem witness_OversizeSendPerformsNoTransportWrites : (idle []).pc = .idle ∧ 60 < (List.replicate 61 0#8).length := by
  decide

/-- P2b, packet-sent at the first poll: with 20 dBm two test-PA writes. -/
theorem witness_SendWritesTheFrameAndReturnsToStandby :
    let s := { idle [.ok [], .ok [], .ok [], .ok [0x04], .ok [], .ok [0x80], .ok [0x08], .ok [0x0C], .ok [], .ok [0x80]]
      with pwr := 20 }
    s.cfg.valid = true ∧ s.pc = .idle ∧ (List.replicate 60 0#8).length ≤ 60 ∧ s.mode ≠ .transmit ∧
    (testPaWrites s.cfg s.pwr .transmit).length = 2 ∧ s.okAt 0 = true ∧ (∀ k < 2, s.okAt (1 + k) = true) ∧
    s.dataAt 3 1 = some [0x04] ∧ s.okAt 4 = true ∧ s.dataAt 5 1 = some [0x80] ∧ s.dataAt 6 1 = some [0x08] ∧
    s.dataAt 7 1 = some [0x0C] ∧ s.okAt 8 = true ∧ s.dataAt 9 1 = some [0x80] ∧
    0x80#8 &&& s.cfg.mModeReady ≠ 0#8 ∧ 0x08#8 &&& s.cfg.mPacketSent ≠ 0#8 := by decide

theorem witness_SendFromTransmitSkipsTheFirstTransition :
    let s := { idle [.ok [], .ok [0x08], .ok [0x0C], .ok [], .ok [0x80]] with mode := .transmit }
    s.cfg.valid = true ∧ s.pc = .idle ∧ ([] : List Byte).length ≤ 60 ∧ s.mode = .transmit ∧ s.okAt 0 = true ∧
    s.dataAt 1 1 = some [0x08] ∧ s.dataAt 2 1 = some [0x0C] ∧ s.okAt 3 = true ∧ s.dataAt 4 1 = some [0x80] ∧
    0x08#8 &&& s.cfg.mPacketSent ≠ 0#8 ∧ 0x80#8 &&& s.cfg.mModeReady ≠ 0#8 := by decide

theorem witness_IsMessageAvailableReadsOneBitInReceiveOnly : (idle []).cfg.valid = true ∧ (idle []).pc = .idle ∧
    (idle []).mode ≠ .receive ∧ { idle [.ok [0x04]] with mode := .receive }.mode = .receive ∧
    { idle [.ok [0x04]] with mode := .receive }.dataAt 0 1 = some [0x04] ∧
    { idle [.fail] with mode := .receive }.dataAt 0 1 = none := by decide

/-- Length bytes 6, and 4 on a block that issues no empty burst. -/
theorem witness_ReceiveReturnsThePayloadBytes :
    let s := idle [.ok [0x06], .ok [0xFF, 0xFF, 0x00, 0x00], .ok [0x48, 0x69]]
    let t := { idle [.ok [0x04], .ok [0xFF, 0xFF, 0x00, 0x00]] with cfg := { cfg with zeroLenBurstIssued := false } }
    s.cfg.valid = true ∧ s.pc = .idle ∧ s.dataAt 0 1 = some [0x06] ∧ 4 ≤ (0x06#8).toNat ∧ (0x06#8).toNat ≤ 6 ∧
    s.dataAt 1 4 = some [0xFF, 0xFF, 0x00, 0x00] ∧ 4 < (0x06#8).toNat ∧
    s.dataAt 2 ((0x06#8).toNat - 4) = some [0x48, 0x69] ∧
    t.cfg.valid = true ∧ t.dataAt 0 1 = some [0x04] ∧ t.dataAt 1 4 = some [0xFF, 0xFF, 0x00, 0x00] ∧
    (0x04#8).toNat = 4 ∧ t.cfg.zeroLenBurstIssued = false := by decide

/-- 6 above 5; 3 below 4 and not above 16. -/
theorem witness_ReceiveRejectsAnUnusableLengthByte : (idle [.ok [0x06]]).cfg.valid = true ∧ (idle [.ok [0x06]]).pc = .idle ∧
    (idle [.ok [0x06]]).dataAt 0 1 = some [0x06] ∧ 5 < (0x06#8).toNat ∧
    (idle [.ok [0x03]]).dataAt 0 1 = some [0x03] ∧ (0x03#8).toNat ≤ 16 ∧ (0x03#8).toNat < 4 := by decide

/-- P3: the seven bytes P2 wrote. -/
theorem witness_ReceiveReconstructsASentPayload :
    let s := idle [.ok [0x06], .ok [0xFF, 0xFF, 0x00, 0x00], .ok [0x48, 0x69]]
    s.cfg.valid = true ∧ s.pc = .idle ∧ [0x48#8, 0x69#8].length ≤ 60 ∧ [0x48#8, 0x69#8].length + 4 ≤ 16 ∧
    s.cfg.zeroLenBurstIssued = true ∧ s.dataAt 0 1 = some ((frame [0x48, 0x69]).take 1) ∧
    s.dataAt 1 4 = some (((frame [0x48, 0x69]).drop 1).take 4) ∧
    s.dataAt 2 [0x48#8, 0x69#8].length = some ((frame [0x48, 0x69]).drop 5) := by decide

/-- Running once, raw 8D. -/
theorem witness_ReadTemperatureWaitsAndSubtractsFrom166 :
    let s := idle [.ok [], .ok [0x04], .ok [0x00], .ok [0x8D]]
    s.cfg.valid = true ∧ s.pc = .idle ∧ s.okAt 0 = true ∧
    (∀ (k : Nat) (h : k < [0x04#8].length), s.dataAt (1 + k) 1 = some [[0x04#8][k]] ∧
      [0x04#8][k] &&& s.cfg.mTempRunning ≠ 0#8) ∧
    s.dataAt 2 1 = some [0x00] ∧ 0x00#8 &&& s.cfg.mTempRunning = 0#8 ∧ s.dataAt 3 1 = some [0x8D] := by decide

theorem witness_RssiReturnsTheRawHalfDecibels : (idle []).cfg.valid = true ∧ (idle []).pc = .idle ∧
    (idle [.ok [0xB4]]).dataAt 0 1 = some [0xB4] ∧ (idle [.fail]).dataAt 0 1 = none := by decide

theorem witness_ReadAllRegistersReturnsEightyFourPairs :
    let s := idle [.ok (List.replicate 80 0x01#8), .ok [0x58], .ok [0x5A], .ok [0x5C], .ok [0x6F]]
    s.pc = .idle ∧ s.dataAt 0 80 = some (List.replicate 80 0x01#8) ∧ s.dataAt 1 1 = some [0x58] ∧
    s.dataAt 2 1 = some [0x5A] ∧ s.dataAt 3 1 = some [0x5C] ∧ s.dataAt 4 1 = some [0x6F] ∧
    (idle [.ok (List.replicate 80 0x01#8), .ok [0x58], .fail]).dataAt 2 1 = none := by decide

end Sys2Proof.Tests
end

section
/-! One event in each step (R5, R60). `Observes s t e` says what a step that observes `e` does to the trace and to the
script of answers; acceptance, every primitive and the return from a command each establish it, and what the sequencer
does after the event keeps it. -/

namespace Sys2Proof.Machine

/-- Between `s` and `t` the one event `e` is observed, and one answer is used up exactly if `e` is given one. -/
structure Observes (s t : State) (e : Event) : Prop where
  trace : t.trace = s.trace ++ [e]
  uses : takesAnswer e = true → t.answers = s.answers.drop 1 ∧ t.drawn = s.drawn + 1
  keeps : takesAnswer e = false → t.answers = s.answers ∧ t.drawn = s.drawn

/-- What the sequencer does up to the next event observes nothing more. -/
theorem Observes.quiet {s u t : State} {e : Event} (ho : Observes s u e) (hq : Quiet u t) : Observes s t e where
  trace := hq.trace.trans ho.trace
  uses he := ⟨hq.answers.trans (ho.uses he).1, hq.drawn.trans (ho.uses he).2⟩
  keeps he := ⟨hq.answers.trans (ho.keeps he).1, hq.drawn.trans (ho.keeps he).2⟩

theorem observes_afterWrite (a : Addr) (bytes : List Byte) (s : State) :
    Observes s (s.afterWrite a bytes) (.busW a bytes (s.okAt 0)) := by
  constructor <;> simp [takesAnswer]

theorem observes_afterRead (a : Addr) (n : Nat) (s : State) :
    Observes s (s.afterRead a n) (.busR a n (s.dataAt 0 n)) := by
  constructor <;> simp [takesAnswer]

theorem observes_afterHigh (s : State) : Observes s s.afterHigh (.rstHigh (s.okAt 0)) := by
  constructor <;> simp [takesAnswer]

theorem observes_afterLow (s : State) : Observes s s.afterLow (.rstLow (s.okAt 0)) := by
  constructor <;> simp [takesAnswer]

theorem observes_delay (d : Delay) (s : State) : Observes s (s.emit (.delay d)) (.delay d) := by
  constructor <;> simp [takesAnswer]

theorem observes_result (r : Result) (s : State) : Observes s (s.emit (.res r)).toIdle (.res r) := by
  constructor <;> simp [takesAnswer]

/-- Accepting a command observes `Cmd`, which is given no answer. -/
theorem Accepted.observes {i : Instr} {s t : State} (h : Accepted i s t) : Observes s t (.cmd i) where
  trace := h.trace
  uses he := by cases he
  keeps _ := ⟨h.answers, h.drawn⟩

/-- The event at a position is one event, and never a `Cmd`. -/
theorem perform_observes {c : Instr} {a : Action} {s t : State} (hq : a.quiet) (h : perform c a s = .next t) :
    ∃ e, Observes s t e ∧ ∀ i, e ≠ .cmd i := by
  obtain ⟨addr, bytes, k, -, -, q⟩ | ⟨addr, n, k, -, -, q⟩ | ⟨k, -, q⟩ | ⟨k, -, q⟩ | ⟨d, k, -, q⟩ | ⟨r, -, rfl⟩ :=
    perform_next hq h
  · exact ⟨_, (observes_afterWrite addr bytes s).quiet q, by simp⟩
  · exact ⟨_, (observes_afterRead addr n s).quiet q, by simp⟩
  · exact ⟨_, (observes_afterHigh s).quiet q, by simp⟩
  · exact ⟨_, (observes_afterLow s).quiet q, by simp⟩
  · exact ⟨_, (observes_delay d s).quiet q, by simp⟩
  · exact ⟨_, observes_result r s, by simp⟩

/-- An instruction that answers next observes one event, `Cmd` of itself exactly from `Idle`. -/
theorem exec_observes {i : Instr} {s t : State} (h : exec i s = .next t) :
    ∃ e, Observes s t e ∧ (s.pc = .idle ↔ e = .cmd i) := by
  cases hp : s.pc with
  | idle => exact ⟨_, (exec_idle_next hp h).observes, by simp⟩
  | running p =>
    obtain ⟨e, ho, hc⟩ := perform_observes (actionAt_quiet p s) (exec_running_next hp h)
    exact ⟨e, ho, by simp [hc i]⟩

/-- Settles O11: `exec` accepts a command at `Idle` or performs the event at the position, and either observes one
event. -/
theorem eachInstructionEmitsExactlyOneEvent : Obligations.EachInstructionEmitsExactlyOneEvent := by
  intro i s t h
  obtain ⟨e, ho, hc⟩ := exec_observes h
  exact ⟨e, ho.trace, hc, ho.uses, ho.keeps⟩

end Sys2Proof.Machine
end

section
/-! The step (R25), said once: at `Idle` it runs the first word of the port or waits; inside a command it performs
the event at the position, by whichever instruction `instrAt` names it. -/

namespace Sys2Proof.Machine

/-- At `Idle` the word taken from the port is run. -/
theorem step_of_port {s : State} {w : CmdWord} {rest : List CmdWord} {i : Instr} (hs : s.pc = .idle)
    (hw : s.port = w :: rest) (hd : decodeCmd w = .ok i) : step s = exec i { s with port := rest } := by
  simp [step, hs, hw, hd]

/-- At `Idle` with no word presented the block waits (log entry 9). -/
theorem step_of_port_nil {s : State} (hs : s.pc = .idle) (hw : s.port = []) : step s = .next s := by
  simp [step, hs, hw]

theorem step_running {s : State} {p : Pos} (hp : s.pc = .running p) : step s = exec (instrAt p s) s := by
  simp [step, hp]

theorem instrAt_read {p : Pos} {s : State} {a : Addr} {n : Nat} {k : List Byte → State → State}
    (ha : actionAt p s = .read a n k) : instrAt p s = .rd a := by
  simp [instrAt, ha]

theorem instrAt_write {p : Pos} {s : State} {a : Addr} {bytes : List Byte} {k : State → State}
    (ha : actionAt p s = .write a bytes k) : instrAt p s = .wr a := by
  simp [instrAt, ha]

/-- The instruction named at a position performs the event there: the bus instruction at a transaction, the command
elsewhere. -/
theorem exec_instrAt {s : State} {p : Pos} (hp : s.pc = .running p) (hc : p.command.isCommand = true) :
    exec (instrAt p s) s = perform p.command (actionAt p s) s := by
  cases ha : actionAt p s with
  | read a n k => simp [instrAt_read ha, exec, execRd, hp, ha]
  | write a bytes k => simp [instrAt_write ha, exec, execWr, hp, ha]
  | _ => simp only [instrAt, ha]; rw [exec_command hp hc, ha]

/-- Settles O5: both clauses are branches of `step`, and `decode` of a port word is `decodeCmd`. -/
theorem stepRunsTheDecodedCommand : Obligations.StepRunsTheDecodedCommand := by
  intro s hs
  exact ⟨fun _ _ _ hw hd => step_of_port hs hw hd, step_of_port_nil hs⟩

/-- Settles O6: `step` executes `instrAt`, and that instruction and the command perform the same event. -/
theorem stepInsideACommandRunsTheInstructionThere : Obligations.StepInsideACommandRunsTheInstructionThere := by
  intro s p hp
  refine ⟨fun a n k ha => ?_, fun a bytes k ha => ?_, fun hc => ?_⟩
  · rw [step_running hp, instrAt_read ha]
  · rw [step_running hp, instrAt_write ha]
  · rw [exec_command hp hc, step_running hp, exec_instrAt hp hc]

end Sys2Proof.Machine
end

section
/-! Acceptance at `Idle` (R25): what each command accepts with, and where the sequencer stands after it. -/

namespace Sys2Proof.Machine

/-! ### Each command at `Idle` -/

section AtIdle
variable {s : State} (hs : s.pc = .idle)
include hs

theorem exec_init_of_idle : exec .init s = accept .init (State.goto (.init (.pulse .high))) s := by
  simp [exec, execInit, hs]

theorem exec_reset_of_idle : exec .reset s = accept .reset (State.goto (.reset .high)) s := by
  simp [exec, execReset, hs]

theorem exec_setMode_of_idle (target : Mode) : exec (.setMode target) s = accept (.setMode target)
    (enterSetMode target (.setMode target) (State.finishOk (.setMode target) .unit)) s := by
  simp [exec, execSetMode, hs]

theorem exec_setModemConfig_of_idle {i : BitVec 8} {v : Preset} (hv : presetAt s.cfg i = some v) :
    exec (.setModemConfig i) s = accept (.setModemConfig i) (State.goto (.setModemConfig i .modulation)) s := by
  simp [exec, execSetModemConfig, hs, hv]

theorem exec_setSyncWords_of_idle (policy : SyncPolicy) (words : List Byte) :
    exec (.setSyncWords policy words) s = accept (.setSyncWords policy words)
      (enterSetSyncWords (.setSyncWords policy words) words (.setSyncWords policy words)) s := by
  simp [exec, execSetSyncWords, hs]

theorem exec_setTxPower_of_idle (power : BitVec 8) :
    exec (.setTxPower power) s = accept (.setTxPower power) (enterSetTxPower power (.setTxPower power)) s := by
  simp [exec, execSetTxPower, hs]

theorem exec_setFrequency_of_idle {f : BitVec 16} (hf : frfWord s.cfg f < 2 ^ 24) :
    exec (.setFrequency f) s = accept (.setFrequency f) (State.goto (.setFrequency f)) s := by
  simp [exec, execSetFrequency, hs, frfBytes_of_lt hf]

theorem exec_send_of_idle (payload : List Byte) : exec (.send payload) s = accept (.send payload)
    (fun t => if maxPayload < payload.length then t.raise (.send payload) .messageTooLarge
      else t.goto (.send payload .fifo)) s := by
  simp [exec, execSend, hs]

theorem exec_isMessageAvailable_of_idle : exec .isMessageAvailable s = accept .isMessageAvailable
    (fun t => if t.mode = .receive then t.goto .isMessageAvailable
      else t.raise .isMessageAvailable .invalidMode) s := by
  simp [exec, execIsMessageAvailable, hs]

theorem exec_receive_of_idle (capacity : Nat) :
    exec (.receive capacity) s = accept (.receive capacity) (State.goto (.receive capacity .length)) s := by
  simp [exec, execReceive, hs]

theorem exec_readTemperature_of_idle :
    exec .readTemperature s = accept .readTemperature (State.goto (.readTemperature .start)) s := by
  simp [exec, execReadTemperature, hs]

theorem exec_rssi_of_idle : exec .rssi s = accept .rssi (State.goto .rssi) s := by
  simp [exec, execRssi, hs]

theorem exec_readAllRegisters_of_idle :
    exec .readAllRegisters s = accept .readAllRegisters (State.goto (.readAllRegisters .core)) s := by
  simp [exec, execReadAllRegisters, hs]

end AtIdle

/-! ### What a rule does before its first event -/

theorem enterSetMode_of_cached {target : Mode} {wrap : SetModePos → Pos} {k : State → State} {u : State}
    (h : u.mode = target) : enterSetMode target wrap k u = k u := by
  obtain ⟨-, e⟩ | ⟨hm, -⟩ | ⟨hm, -⟩ := enterSetMode_cases target wrap k u
  · exact e
  · exact absurd h hm
  · exact absurd h hm

theorem enterSetMode_of_boost {target : Mode} {wrap : SetModePos → Pos} {k : State → State} {u : State}
    (h : u.mode ≠ target) (hb : (target = .transmit ∨ target = .receive) ∧ 18 ≤ dbm u.pwr) :
    enterSetMode target wrap k u = u.goto (wrap .testPa1) := by
  obtain ⟨hm, -⟩ | ⟨-, -, -, e⟩ | ⟨-, hn, -⟩ := enterSetMode_cases target wrap k u
  · exact absurd hm h
  · exact e
  · exact absurd hb hn

theorem enterSetMode_of_no_boost {target : Mode} {wrap : SetModePos → Pos} {k : State → State} {u : State}
    (h : u.mode ≠ target) (hb : ¬((target = .transmit ∨ target = .receive) ∧ 18 ≤ dbm u.pwr)) :
    enterSetMode target wrap k u = u.goto (wrap .readMode) := by
  obtain ⟨hm, -⟩ | ⟨-, ht, hp, -⟩ | ⟨-, -, e⟩ := enterSetMode_cases target wrap k u
  · exact absurd hm h
  · exact absurd ⟨ht, hp⟩ hb
  · exact e

theorem badWordCount_eq_true_iff {words : List Byte} :
    badWordCount words = true ↔ words.length = 0 ∨ 8 < words.length := by
  simp [badWordCount]

theorem enterSetSyncWords_of_usable {c : Instr} {words : List Byte} (first : Pos) (u : State)
    (h1 : 1 ≤ words.length) (h8 : words.length ≤ 8) : enterSetSyncWords c words first u = u.goto first :=
  if_neg (by rw [badWordCount_eq_true_iff]; omega)

theorem enterSetSyncWords_of_bad {c : Instr} {words : List Byte} (first : Pos) (u : State)
    (h : words.length = 0 ∨ 8 < words.length) :
    enterSetSyncWords c words first u = u.raise c .configurationError :=
  if_pos (badWordCount_eq_true_iff.mpr h)

/-- A command accepted with a continuation that only moves to `p`: `Cmd` is observed and the sequencer stands there. -/
theorem exec_eq_next_of_accept {i : Instr} {k : State → State} {p : Pos} {s : State} (he : exec i s = accept i k s)
    (hk : k (s.emit (.cmd i)) = (s.emit (.cmd i)).goto p) :
    exec i s = .next { s with pc := .running p, trace := s.trace ++ [.cmd i] } := by
  rw [he, accept, hk]; rfl

/-- Settles O9: each command is accepted, and the continuation it is accepted with moves to the first event or to the
result. -/
theorem everyCommandIsAcceptedAtIdle : Obligations.EveryCommandIsAcceptedAtIdle := by
  intro s hs
  refine ⟨?init, ?reset, ?boost, ?noBoost, ?cached, ?modem, ?sync, ?badSync, ?power, ?frequency, ?send, ?tooLarge,
    ?available, ?invalidMode, ?receive, ?temperature, ?rssi, ?dump⟩
  case init => exact exec_eq_next_of_accept (exec_init_of_idle hs) rfl
  case reset => exact exec_eq_next_of_accept (exec_reset_of_idle hs) rfl
  case boost =>
    intro target hne hb
    exact exec_eq_next_of_accept (exec_setMode_of_idle hs target) (enterSetMode_of_boost hne.symm hb)
  case noBoost =>
    intro target hne hb
    exact exec_eq_next_of_accept (exec_setMode_of_idle hs target) (enterSetMode_of_no_boost hne.symm hb)
  case cached => exact exec_eq_next_of_accept (exec_setMode_of_idle hs s.mode) (enterSetMode_of_cached rfl)
  case modem =>
    intro i hi
    exact exec_eq_next_of_accept (exec_setModemConfig_of_idle hs (List.getElem?_eq_getElem hi)) rfl
  case sync =>
    intro policy words h1 h8
    exact exec_eq_next_of_accept (exec_setSyncWords_of_idle hs policy words) (enterSetSyncWords_of_usable _ _ h1 h8)
  case badSync =>
    intro policy words hw
    exact exec_eq_next_of_accept (exec_setSyncWords_of_idle hs policy words) (enterSetSyncWords_of_bad _ _ hw)
  case power => intro power; rw [exec_setTxPower_of_idle hs power]; rfl
  case frequency =>
    intro f hf
    exact exec_eq_next_of_accept (exec_setFrequency_of_idle hs hf) rfl
  case send =>
    intro payload hl
    exact exec_eq_next_of_accept (exec_send_of_idle hs payload) (if_neg (Nat.not_lt.mpr hl))
  case tooLarge =>
    intro payload hl
    exact exec_eq_next_of_accept (exec_send_of_idle hs payload) (if_pos hl)
  case available =>
    intro hm
    exact exec_eq_next_of_accept (exec_isMessageAvailable_of_idle hs) (if_pos hm)
  case invalidMode =>
    intro hm
    exact exec_eq_next_of_accept (exec_isMessageAvailable_of_idle hs) (if_neg hm)
  case receive => intro capacity; exact exec_eq_next_of_accept (exec_receive_of_idle hs capacity) rfl
  case temperature => exact exec_eq_next_of_accept (exec_readTemperature_of_idle hs) rfl
  case rssi => exact exec_eq_next_of_accept (exec_rssi_of_idle hs) rfl
  case dump => exact exec_eq_next_of_accept (exec_readAllRegisters_of_idle hs) rfl

end Sys2Proof.Machine
end

section
/-! Frames of one instruction: the fields no instruction writes (R23, R37), and the reset line (R39). -/

namespace Sys2Proof.Machine

/-- The event at a position leaves the topology flag, the configuration and the port alone. -/
theorem perform_keeps_hp_cfg_port {c : Instr} {a : Action} {s t : State} (hq : a.quiet)
    (h : perform c a s = .next t) : t.hp = s.hp ∧ t.cfg = s.cfg ∧ t.port = s.port := by
  obtain ⟨addr, bytes, k, -, -, q⟩ | ⟨addr, n, k, -, -, q⟩ | ⟨k, -, q⟩ | ⟨k, -, q⟩ | ⟨d, k, -, q⟩ | ⟨r, -, rfl⟩ :=
    perform_next hq h
  case inr.inr.inr.inr.inr => exact ⟨rfl, rfl, rfl⟩
  all_goals simp [q.hp, q.cfg, q.port]

/-- Settles O13: neither acceptance nor the event at a position writes any of the three. -/
theorem topologyFlagAndConfigurationNeverChange : Obligations.TopologyFlagAndConfigurationNeverChange := by
  intro i s t h
  cases hp : s.pc with
  | idle =>
    have ha := exec_idle_next hp h
    exact ⟨ha.hp, ha.cfg, ha.port⟩
  | running p => exact perform_keeps_hp_cfg_port (actionAt_quiet p s) (exec_running_next hp h)

/-- The event at a position keeps the reset line, or is a drive answered `ok`, which sets it. -/
theorem perform_line {c : Instr} {a : Action} {s t : State} (hq : a.quiet) (h : perform c a s = .next t) :
    t.line = s.line ∨ (t.trace = s.trace ++ [.rstHigh true] ∧ t.line = .high) ∨
      (t.trace = s.trace ++ [.rstLow true] ∧ t.line = .low) := by
  obtain ⟨addr, bytes, k, -, -, q⟩ | ⟨addr, n, k, -, -, q⟩ | ⟨k, -, q⟩ | ⟨k, -, q⟩ | ⟨d, k, -, q⟩ | ⟨r, -, rfl⟩ :=
    perform_next hq h
  · exact .inl (by simp [q.line])
  · exact .inl (by simp [q.line])
  · cases ho : s.okAt 0 with
    | true => exact .inr (.inl (by simp [q.line, q.trace, ho]))
    | false => exact .inl (by simp [q.line, ho])
  · cases ho : s.okAt 0 with
    | true => exact .inr (.inr (by simp [q.line, q.trace, ho]))
    | false => exact .inl (by simp [q.line, ho])
  · exact .inl (by simp [q.line])
  · exact .inl rfl

/-- Settles O16: acceptance keeps the line, and inside a command only an acknowledged drive sets it. -/
theorem resetLineChangesOnlyByAnAcknowledgedDrive : Obligations.ResetLineChangesOnlyByAnAcknowledgedDrive := by
  intro i s t h hne
  cases hp : s.pc with
  | idle => exact absurd (exec_idle_next hp h).line hne
  | running p => exact (perform_line (actionAt_quiet p s) (exec_running_next hp h)).resolve_left hne

end Sys2Proof.Machine
end

section
/-! The cached power (R22): what follows an event keeps it, at every position but the preamble write of `init`, whose
continuation is the `call set_tx_power` of step 10. -/

namespace Sys2Proof.Machine

/-- What follows an event keeps the cached power. -/
def KeepsPower (k : State → State) : Prop := ∀ u, (k u).pwr = u.pwr

/-- An action whose continuation keeps the cached power. -/
def Action.keepsPower : Action → Prop
  | .write _ _ k => KeepsPower k
  | .read _ _ k => ∀ bytes, KeepsPower (k bytes)
  | .lineHigh k => KeepsPower k
  | .lineLow k => KeepsPower k
  | .delay _ k => KeepsPower k
  | .result _ => True
  | .fault _ => True
  | .refuse _ => True

theorem keepsPower_goto (p : Pos) : KeepsPower (State.goto p) := fun _ => rfl

theorem keepsPower_finishOk (c : Instr) (v : Value) : KeepsPower (State.finishOk c v) := fun _ => rfl

theorem keepsPower_enterSetMode {k : State → State} (h : KeepsPower k) (target : Mode) (wrap : SetModePos → Pos) :
    KeepsPower (enterSetMode target wrap k) := by
  intro u
  unfold enterSetMode
  split
  · rfl
  · exact h u

theorem keepsPower_enterSetSyncWords (c : Instr) (words : List Byte) (first : Pos) :
    KeepsPower (enterSetSyncWords c words first) := by
  intro u
  unfold enterSetSyncWords
  split <;> rfl

theorem waitAct_keepsPower {addr : Addr} {mask : Byte} {want : Bool} {wrap : WaitPos → Pos} {k : State → State}
    (h : KeepsPower k) (w : WaitPos) (s : State) : (waitAct addr mask want wrap k w s).keepsPower := by
  cases w with
  | poll =>
    intro bytes u
    dsimp only
    split
    · exact h u
    · rfl
  | sleep => exact keepsPower_goto _

theorem resetAct_keepsPower {wrap : ResetPos → Pos} {k : State → State} (h : KeepsPower k) (p : ResetPos) :
    (resetAct wrap k p).keepsPower := by
  cases p
  case settle => exact h
  all_goals exact keepsPower_goto _

theorem setModeAct_keepsPower {target : Mode} {wrap : SetModePos → Pos} {k : State → State} (h : KeepsPower k)
    (p : SetModePos) (s : State) : (setModeAct target wrap k p s).keepsPower := by
  cases p
  case ready w => dsimp only [setModeAct]; exact waitAct_keepsPower (fun u => h (u.cacheMode target)) w s
  case readMode => exact fun _ => keepsPower_goto _
  all_goals exact keepsPower_goto _

theorem modemAct_keepsPower {i : BitVec 8} {wrap : ModemPos → Pos} {k : State → State} (h : KeepsPower k)
    (p : ModemPos) (s : State) : (modemAct i wrap k p s).keepsPower := by
  unfold modemAct
  split
  · trivial
  · cases p
    case packet => exact h
    all_goals exact keepsPower_goto _

theorem frequencyAct_keepsPower {f : BitVec 16} {k : State → State} (h : KeepsPower k) (s : State) :
    (frequencyAct f k s).keepsPower := by
  unfold frequencyAct
  split
  · trivial
  · exact h

theorem initAct_keepsPower {p : InitPos} (hp : p ≠ .preamble) (s : State) : (initAct p s).keepsPower := by
  cases p with
  | pulse q => dsimp only [initAct]; exact resetAct_keepsPower (keepsPower_goto _) q
  | version =>
    intro bytes u
    dsimp only
    split <;> rfl
  | lna => exact keepsPower_enterSetSyncWords _ _ _
  | modem q => dsimp only [initAct]; exact modemAct_keepsPower (keepsPower_goto _) q s
  | preamble => exact absurd rfl hp
  | frequency => exact frequencyAct_keepsPower (keepsPower_enterSetMode (keepsPower_finishOk _ _) _ _) s
  | toStandby q => dsimp only [initAct]; exact setModeAct_keepsPower (keepsPower_finishOk _ _) q s
  | _ => exact keepsPower_goto _

theorem sendAct_keepsPower (payload : List Byte) (p : SendPos) (s : State) : (sendAct payload p s).keepsPower := by
  cases p with
  | fifo => exact keepsPower_enterSetMode (keepsPower_goto _) _ _
  | toTransmit q => dsimp only [sendAct]; exact setModeAct_keepsPower (keepsPower_goto _) q s
  | sent w =>
    dsimp only [sendAct]
    exact waitAct_keepsPower (keepsPower_enterSetMode (keepsPower_finishOk _ _) _ _) w s
  | toStandby q => dsimp only [sendAct]; exact setModeAct_keepsPower (keepsPower_finishOk _ _) q s

theorem receiveAct_keepsPower (capacity : Nat) (p : ReceivePos) (s : State) :
    (receiveAct capacity p s).keepsPower := by
  cases p with
  | length =>
    intro bytes u
    dsimp only [receiveLength]
    split
    · rfl
    · split <;> rfl
  | underflow => trivial
  | header len =>
    intro bytes u
    dsimp only [receivePayload]
    split <;> rfl
  | payload len => exact fun _ => keepsPower_finishOk _ _

theorem readTemperatureAct_keepsPower (p : TempPos) (s : State) : (readTemperatureAct p s).keepsPower := by
  cases p with
  | start => exact keepsPower_goto _
  | running w => dsimp only [readTemperatureAct]; exact waitAct_keepsPower (keepsPower_goto _) w s
  | raw => exact fun _ => keepsPower_finishOk _ _

/-- Every action but the preamble write of `init` keeps the cached power. -/
theorem actionAt_keepsPower {p : Pos} (hp : p ≠ .init .preamble) (s : State) : (actionAt p s).keepsPower := by
  cases p with
  | init q => exact initAct_keepsPower (fun hq => hp (congrArg Pos.init hq)) s
  | reset q => exact resetAct_keepsPower (keepsPower_finishOk _ _) q
  | setMode target q => exact setModeAct_keepsPower (keepsPower_finishOk _ _) q s
  | setModemConfig i q => exact modemAct_keepsPower (keepsPower_finishOk _ _) q s
  | setFrequency f => exact frequencyAct_keepsPower (keepsPower_finishOk _ _) s
  | send payload q => exact sendAct_keepsPower payload q s
  | receive capacity q => exact receiveAct_keepsPower capacity q s
  | readTemperature q => exact readTemperatureAct_keepsPower q s
  | readAllRegisters q =>
    cases q
    case aux6F => exact fun _ => keepsPower_finishOk _ _
    all_goals exact fun _ => keepsPower_goto _
  | isMessageAvailable => exact fun _ _ => rfl
  | rssi => exact fun _ => keepsPower_finishOk _ _
  | finish c r => trivial
  | _ => exact keepsPower_finishOk _ _

/-- An event whose continuation keeps the cached power keeps it, answered `ok` or `fail`. -/
theorem perform_keeps_pwr {c : Instr} {a : Action} {s t : State} (hk : a.keepsPower) (h : perform c a s = .next t) :
    t.pwr = s.pwr := by
  cases a with
  | write addr bytes k =>
    obtain ⟨-, ⟨-, rfl⟩ | ⟨-, rfl⟩⟩ := memWrite_next h
    · exact (hk _).trans (by simp)
    · simp
  | read addr n k =>
    obtain ⟨-, ⟨bytes, -, rfl⟩ | ⟨-, rfl⟩⟩ := memRead_next h
    · exact (hk bytes _).trans (by simp)
    · simp
  | lineHigh k =>
    obtain ⟨-, rfl⟩ | ⟨-, rfl⟩ := lineHigh_next h
    · exact (hk _).trans (by simp)
    · simp
  | lineLow k =>
    obtain ⟨-, rfl⟩ | ⟨-, rfl⟩ := lineLow_next h
    · exact (hk _).trans (by simp)
    · simp
  | delay d k =>
    obtain rfl := delayFor_next h
    exact hk _
  | result r =>
    obtain rfl := respond_next h
    rfl
  | fault f => cases h
  | refuse r => cases h

/-- The preamble write of `init` keeps the cached power if it fails, and caches 13 for `set_tx_power` if not. -/
theorem perform_preamble_pwr {c : Instr} {s t : State} (h : perform c (actionAt (.init .preamble) s) s = .next t) :
    t.pwr = s.pwr ∨ t.pwr = 13 := by
  obtain ⟨-, ⟨-, rfl⟩ | ⟨-, rfl⟩⟩ := memWrite_next h
  · exact .inr rfl
  · exact .inl (by simp)

/-- Settles O15: at `Idle` only `set_tx_power` caches, and inside a command only the preamble write of `init`. -/
theorem cachedPowerIsWrittenOnlyBySetTxPower : Obligations.CachedPowerIsWrittenOnlyBySetTxPower := by
  intro i s t h hne
  cases hp : s.pc with
  | idle => exact .inl ⟨rfl, (exec_idle_next hp h).pwr.resolve_left hne⟩
  | running p =>
    have hperf := exec_running_next hp h
    by_cases hpre : p = .init .preamble
    · subst hpre
      exact .inr ⟨rfl, (perform_preamble_pwr hperf).resolve_left hne⟩
    · exact absurd (perform_keeps_pwr (actionAt_keepsPower hpre s) hperf) hne

end Sys2Proof.Machine
end

section
/-! The invariant at block reset (R260), and that the configuration of the reset state is one of this hardware (R9):
its OPEN fields are bounded to meet the items that speak of them (log entry 3), the others are literals. -/

namespace Sys2Proof.Machine

theorem block_presetsUsable : Config.block.presetsUsable = true := by
  have hlen : Config.presets.length ≤ 256 := by
    simp only [Config.presets, List.length_cons, List.length_take]; omega
  have hmod := Nat.mod_lt Config.initPresetChoice (show 0 < Config.presets.length from Nat.succ_pos _)
  have hinit : Config.block.initPreset.toNat < Config.presets.length := by
    simp only [Config.block, BitVec.toNat_ofNat]
    exact (Nat.mod_le _ _).trans_lt hmod
  exact Bool.and_eq_true_iff.mpr ⟨decide_eq_true hlen, decide_eq_true hinit⟩

theorem block_initSyncWordsUsable : Config.block.initSyncWordsUsable = true := by
  have hgood : badWordCount Config.block.initSyncWords = false := by
    rw [Bool.eq_false_iff, Ne, badWordCount_eq_true_iff]
    simp only [Config.block, List.length_cons, List.length_take]
    omega
  simp [Cfg.initSyncWordsUsable, hgood]

theorem block_initFreqUsable : Config.block.initFreqUsable = true := by
  simp only [Cfg.initFreqUsable, frfWord, Config.block, BitVec.toNat_ofNat, decide_eq_true_eq]
  omega

/-- The configuration of the reset state meets R9. -/
theorem block_valid : Config.block.valid = true := by
  have haddr : Config.block.addressesEnumerated = true := by decide
  have hburst : Config.block.burstsInCoreBank = true := by decide
  have htest : Config.block.testPaDistinct = true := by decide
  have hcodes : Config.block.modeCodesDistinct = true := by decide
  have hpa : Config.block.paBitsPlaced = true := by decide
  have hmask : Config.block.statusMasksSingle = true := by decide
  have hsynth : Config.block.synthesizerConstants = true := by decide
  simp only [Cfg.valid, haddr, hburst, htest, hcodes, hpa, hmask, hsynth, block_presetsUsable,
    block_initSyncWordsUsable, block_initFreqUsable, Bool.and_self]

theorem inv_blockReset {cfg : Cfg} (h : cfg.valid = true) : (State.blockReset cfg).Inv where
  cfg := h
  chip := List.Pairwise.nil
  pc := trivial

/-- Settles O21: block reset leaves an empty record at `Idle`, and the reset state's configuration is legal. -/
theorem invariantHoldsAfterBlockReset : Obligations.InvariantHoldsAfterBlockReset :=
  ⟨fun _ h => inv_blockReset h, inv_blockReset block_valid⟩

end Sys2Proof.Machine
end

section
/-! The record of register writes (R123, R53), frame: a burst reaches the registers from its address on, one for each
byte, and every other register reads as before. -/

namespace Sys2Proof.Machine

namespace Memory

theorem read_storeBurst_outside {base r : Nat} {bytes : List Byte} (m : Memory)
    (h : r < base ∨ base + bytes.length ≤ r) : read r (storeBurst base bytes m) = read r m := by
  induction bytes generalizing base m with
  | nil => rfl
  | cons b bs ih =>
    rw [List.length_cons] at h
    calc read r (storeBurst (base + 1) bs (write base b m))
        = read r (write base b m) := ih _ (by omega)
      _ = read r m := read_write_other b m (by omega)

/-- A filter that drops no entry of a register leaves the register as it reads. -/
theorem read_filter {f : Host.Cell → Bool} {r : Nat} (hf : ∀ b, f (r, b) = true) (m : Memory) :
    read r (m.filter f) = read r m := by
  induction m with
  | nil => rfl
  | cons c m ih =>
    obtain ⟨x, v⟩ := c
    by_cases hx : r = x
    · subst hx; simp [read, hf]
    · rw [List.filter_cons]
      split <;> simpa [read, hx] using ih

theorem read_forgetBurst_outside {base n r : Nat} (m : Memory) (h : r < base ∨ base + n ≤ r) :
    read r (forgetBurst base n m) = read r m :=
  read_filter (fun _ => by simpa using h) m

end Memory

/-- A register that a write transaction does not reach reads as before; the FIFO address reaches none. -/
theorem read_recordWrite_outside {a : Addr} {bytes : List Byte} {r : Nat} (ok : Bool) (s : State)
    (h : a = s.cfg.aFifo ∨ r < a.toNat ∨ a.toNat + bytes.length ≤ r) :
    Memory.read r (s.recordWrite a bytes ok).chip = Memory.read r s.chip := by
  rw [State.recordWrite_chip]
  split
  · rfl
  · next hf =>
    have hr := h.resolve_left hf
    split
    · exact Memory.read_storeBurst_outside _ hr
    · exact Memory.read_forgetBurst_outside _ hr

/-- The event at a position keeps the record, or is a write transaction or the drive that resets the chip. -/
theorem perform_chip {c : Instr} {a : Action} {s t : State} (hq : a.quiet) (h : perform c a s = .next t) :
    t.chip = s.chip ∨
    (∃ addr bytes ok, t.trace = s.trace ++ [.busW addr bytes ok] ∧ t.chip = (s.recordWrite addr bytes ok).chip) ∨
    (∃ ok, t.trace = s.trace ++ [.rstHigh ok]) := by
  obtain ⟨addr, bytes, k, -, -, q⟩ | ⟨addr, n, k, -, -, q⟩ | ⟨k, -, q⟩ | ⟨k, -, q⟩ | ⟨d, k, -, q⟩ | ⟨r, -, rfl⟩ :=
    perform_next hq h
  · exact .inr (.inl ⟨addr, bytes, s.okAt 0, by simp [q.trace], by simp [q.chip]⟩)
  · exact .inl (by simp [q.chip])
  · exact .inr (.inr ⟨s.okAt 0, by simp [q.trace]⟩)
  · exact .inl (by simp [q.chip])
  · exact .inl (by simp [q.chip])
  · exact .inl rfl

/-- Settles O17: of the events only a write transaction and the chip reset touch the record, and a write transaction
only the registers it reaches. -/
theorem registerRecordChangesOnlyWhereWritten : Obligations.RegisterRecordChangesOnlyWhereWritten := by
  intro i s t r h hne
  cases hp : s.pc with
  | idle => exact absurd (congrArg (Memory.read r) (exec_idle_next hp h).chip) hne
  | running p =>
    obtain hc | ⟨a, bytes, ok, ht, hc⟩ | hreset := perform_chip (actionAt_quiet p s) (exec_running_next hp h)
    · exact absurd (congrArg (Memory.read r) hc) hne
    · rw [hc] at hne
      have hin := mt (read_recordWrite_outside ok s) hne
      push Not at hin
      obtain ⟨hf, hlo, hhi⟩ := hin
      exact .inl ⟨a, bytes, ok, ht, hf, hlo, hhi⟩
    · exact .inr hreset

end Sys2Proof.Machine
end

section
/-! The record of register writes is never read (R59, log entry 6). A state with another record stands at the same
event with the same answer, and what the sequencer does after an event commutes with replacing the record; so two runs
that differ in the record differ in nothing else. -/

namespace Sys2Proof.Machine

/-! ### A state with another record -/

/-- The state with its record replaced. -/
def State.withRecord (m : Memory) (s : State) : State := { s with chip := m }

theorem State.dataAt_withRecord (m : Memory) (s : State) (k n : Nat) :
    (s.withRecord m).dataAt k n = s.dataAt k n := rfl

/-- Recording a write changes the record alone. -/
theorem State.recordWrite_withRecord (a : Addr) (bytes : List Byte) (ok : Bool) (n : Memory) (s : State) :
    (s.recordWrite a bytes ok).withRecord n = s.withRecord n := by
  unfold State.recordWrite
  split
  · rfl
  · split <;> rfl

theorem afterWrite_of_withRecord (a : Addr) (bytes : List Byte) (m n : Memory) (s : State) :
    ((s.withRecord m).afterWrite a bytes).withRecord n = (s.afterWrite a bytes).withRecord n := by
  simp only [State.afterWrite, State.recordWrite_withRecord]
  rfl

theorem afterRead_of_withRecord (a : Addr) (k : Nat) (m : Memory) (s : State) :
    (s.withRecord m).afterRead a k = (s.afterRead a k).withRecord m := rfl

theorem driveLine_of_withRecord (level : LineLevel) (ok : Bool) (m : Memory) (s : State) :
    (s.withRecord m).driveLine level ok = (s.driveLine level ok).withRecord m := by
  cases ok <;> rfl

theorem forgetChip_of_withRecord (m : Memory) (s : State) : (s.withRecord m).forgetChip = s.forgetChip := rfl

theorem afterHigh_of_withRecord (m : Memory) (s : State) : (s.withRecord m).afterHigh = s.afterHigh :=
  (congrArg State.forgetChip (driveLine_of_withRecord .high (s.okAt 0) m (s.draw.emit (.rstHigh (s.okAt 0))))).trans
    (forgetChip_of_withRecord m _)

theorem afterLow_of_withRecord (m : Memory) (s : State) : (s.withRecord m).afterLow = s.afterLow.withRecord m :=
  driveLine_of_withRecord .low (s.okAt 0) m (s.draw.emit (.rstLow (s.okAt 0)))

theorem actionAt_withRecord (p : Pos) (m : Memory) (s : State) : actionAt p (s.withRecord m) = actionAt p s := rfl

/-! ### Continuations that do not look at the record -/

/-- Whatever the record is, `k` does the same and leaves it there. -/
def RecordBlind (k : State → State) : Prop := ∀ m u, k (u.withRecord m) = (k u).withRecord m

/-- States that differ in the record alone are taken to states that differ in the record alone. -/
theorem RecordBlind.congr {k : State → State} (hk : RecordBlind k) {m : Memory} {u v : State}
    (h : u.withRecord m = v.withRecord m) : (k u).withRecord m = (k v).withRecord m := by
  rw [← hk, ← hk, h]

/-- A branch on what is no part of the record. -/
theorem RecordBlind.ite {P : State → Prop} [DecidablePred P] {k l : State → State} (hk : RecordBlind k)
    (hl : RecordBlind l) (hP : ∀ m u, P (u.withRecord m) ↔ P u) :
    RecordBlind (fun u => if P u then k u else l u) := by
  intro m u
  by_cases h : P u
  · simp only [if_pos h, if_pos ((hP m u).mpr h), hk m u]
  · simp only [if_neg h, if_neg (mt (hP m u).mp h), hl m u]

theorem recordBlind_goto (p : Pos) : RecordBlind (State.goto p) := fun _ _ => rfl

theorem recordBlind_finishOk (c : Instr) (v : Value) : RecordBlind (State.finishOk c v) := fun _ _ => rfl

theorem recordBlind_raise (c : Instr) (e : ErrKind) : RecordBlind (State.raise c e) := fun _ _ => rfl

theorem recordBlind_enterSetTxPower (power : BitVec 8) (first : Pos) :
    RecordBlind (enterSetTxPower power first) := fun _ _ => rfl

theorem recordBlind_enterSetSyncWords (c : Instr) (words : List Byte) (first : Pos) :
    RecordBlind (enterSetSyncWords c words first) :=
  (recordBlind_raise _ _).ite (recordBlind_goto _) fun _ _ => Iff.rfl

theorem recordBlind_enterSetMode {k : State → State} (hk : RecordBlind k) (target : Mode) (wrap : SetModePos → Pos) :
    RecordBlind (enterSetMode target wrap k) := by
  intro m u
  have hentry : setModeEntry target (u.withRecord m) = setModeEntry target u := rfl
  unfold enterSetMode
  rw [hentry]
  split
  · rfl
  · exact hk m u

theorem recordBlind_receiveLength (capacity : Nat) (len : Byte) : RecordBlind (receiveLength capacity len) :=
  (recordBlind_raise _ _).ite
    ((recordBlind_goto _).ite (recordBlind_goto _) fun _ _ => Iff.rfl) fun _ _ => Iff.rfl

theorem recordBlind_receivePayload (capacity : Nat) (len : Byte) : RecordBlind (receivePayload capacity len) :=
  (recordBlind_finishOk _ _).ite (recordBlind_goto _) fun _ _ => Iff.rfl

/-- An action whose continuation does not look at the record. -/
def Action.recordBlind : Action → Prop
  | .write _ _ k => RecordBlind k
  | .read _ _ k => ∀ bytes, RecordBlind (k bytes)
  | .lineHigh k => RecordBlind k
  | .lineLow k => RecordBlind k
  | .delay _ k => RecordBlind k
  | .result _ => True
  | .fault _ => True
  | .refuse _ => True

theorem waitAct_recordBlind {addr : Addr} {mask : Byte} {want : Bool} {wrap : WaitPos → Pos} {k : State → State}
    (hk : RecordBlind k) (w : WaitPos) (s : State) : (waitAct addr mask want wrap k w s).recordBlind := by
  cases w with
  | poll => exact fun _ => hk.ite (recordBlind_goto _) fun _ _ => Iff.rfl
  | sleep => exact recordBlind_goto _

theorem resetAct_recordBlind {wrap : ResetPos → Pos} {k : State → State} (hk : RecordBlind k) (p : ResetPos) :
    (resetAct wrap k p).recordBlind := by
  cases p
  case settle => exact hk
  all_goals exact recordBlind_goto _

theorem setModeAct_recordBlind {target : Mode} {wrap : SetModePos → Pos} {k : State → State} (hk : RecordBlind k)
    (p : SetModePos) (s : State) : (setModeAct target wrap k p s).recordBlind := by
  cases p
  case ready w => dsimp only [setModeAct]; exact waitAct_recordBlind (fun m u => hk m (u.cacheMode target)) w s
  case readMode => exact fun _ => recordBlind_goto _
  all_goals exact recordBlind_goto _

theorem modemAct_recordBlind {i : BitVec 8} {wrap : ModemPos → Pos} {k : State → State} (hk : RecordBlind k)
    (p : ModemPos) (s : State) : (modemAct i wrap k p s).recordBlind := by
  unfold modemAct
  split
  · trivial
  · cases p
    case packet => exact hk
    all_goals exact recordBlind_goto _

theorem frequencyAct_recordBlind {f : BitVec 16} {k : State → State} (hk : RecordBlind k) (s : State) :
    (frequencyAct f k s).recordBlind := by
  unfold frequencyAct
  split
  · trivial
  · exact hk

theorem initAct_recordBlind (p : InitPos) (s : State) : (initAct p s).recordBlind := by
  cases p with
  | pulse q => dsimp only [initAct]; exact resetAct_recordBlind (recordBlind_goto _) q
  | version => exact fun _ => (recordBlind_goto _).ite (recordBlind_raise _ _) fun _ _ => Iff.rfl
  | lna => exact recordBlind_enterSetSyncWords _ _ _
  | modem q => dsimp only [initAct]; exact modemAct_recordBlind (recordBlind_goto _) q s
  | preamble => exact recordBlind_enterSetTxPower _ _
  | frequency => exact frequencyAct_recordBlind (recordBlind_enterSetMode (recordBlind_finishOk _ _) _ _) s
  | toStandby q => dsimp only [initAct]; exact setModeAct_recordBlind (recordBlind_finishOk _ _) q s
  | _ => exact recordBlind_goto _

theorem sendAct_recordBlind (payload : List Byte) (p : SendPos) (s : State) :
    (sendAct payload p s).recordBlind := by
  cases p with
  | fifo => exact recordBlind_enterSetMode (recordBlind_goto _) _ _
  | toTransmit q => dsimp only [sendAct]; exact setModeAct_recordBlind (recordBlind_goto _) q s
  | sent w =>
    dsimp only [sendAct]
    exact waitAct_recordBlind (recordBlind_enterSetMode (recordBlind_finishOk _ _) _ _) w s
  | toStandby q => dsimp only [sendAct]; exact setModeAct_recordBlind (recordBlind_finishOk _ _) q s

theorem receiveAct_recordBlind (capacity : Nat) (p : ReceivePos) (s : State) :
    (receiveAct capacity p s).recordBlind := by
  cases p with
  | length => exact fun _ => recordBlind_receiveLength _ _
  | underflow => trivial
  | header len => exact fun _ => recordBlind_receivePayload _ _
  | payload len => exact fun _ => recordBlind_finishOk _ _

theorem readTemperatureAct_recordBlind (p : TempPos) (s : State) : (readTemperatureAct p s).recordBlind := by
  cases p with
  | start => exact recordBlind_goto _
  | running w => dsimp only [readTemperatureAct]; exact waitAct_recordBlind (recordBlind_goto _) w s
  | raw => exact fun _ => recordBlind_finishOk _ _

/-- No action looks at the record after its event. -/
theorem actionAt_recordBlind (p : Pos) (s : State) : (actionAt p s).recordBlind := by
  cases p with
  | init q => exact initAct_recordBlind q s
  | reset q => exact resetAct_recordBlind (recordBlind_finishOk _ _) q
  | setMode target q => exact setModeAct_recordBlind (recordBlind_finishOk _ _) q s
  | setModemConfig i q => exact modemAct_recordBlind (recordBlind_finishOk _ _) q s
  | setFrequency f => exact frequencyAct_recordBlind (recordBlind_finishOk _ _) s
  | send payload q => exact sendAct_recordBlind payload q s
  | receive capacity q => exact receiveAct_recordBlind capacity q s
  | readTemperature q => exact readTemperatureAct_recordBlind q s
  | readAllRegisters q =>
    cases q
    case aux6F => exact fun _ => recordBlind_finishOk _ _
    all_goals exact fun _ => recordBlind_goto _
  | isMessageAvailable => exact fun _ _ _ => rfl
  | rssi => exact fun _ => recordBlind_finishOk _ _
  | finish c r => trivial
  | _ => exact recordBlind_finishOk _ _

/-! ### An event -/

/-- What an answer, given by `b`, leads to from two states that differ in the record alone. -/
theorem RecordBlind.answered {k : State → State} (hk : RecordBlind k) (b : Bool) (c : Instr) (e : ErrKind)
    {u v : State} (h : u.withRecord [] = v.withRecord []) :
    sansRecord (.next (if b then k u else u.raise c e)) = sansRecord (.next (if b then k v else v.raise c e)) :=
  congrArg Host.Outcome.next ((hk.ite (P := fun _ => b) (recordBlind_raise c e) fun _ _ => Iff.rfl).congr h)

theorem memWrite_withRecord {k : State → State} (hk : RecordBlind k) (c : Instr) (a : Addr) (bytes : List Byte)
    (m : Memory) (s : State) :
    sansRecord (memWrite c a bytes k (s.withRecord m)) = sansRecord (memWrite c a bytes k s) := by
  unfold memWrite
  by_cases hl : legalBurst s.cfg a bytes.length = true
  · have hl' : legalBurst (s.withRecord m).cfg a bytes.length = true := hl
    rw [if_pos hl, if_pos hl']
    exact hk.answered (s.okAt 0) c _ (afterWrite_of_withRecord a bytes m [] s)
  · have hl' : ¬legalBurst (s.withRecord m).cfg a bytes.length = true := hl
    rw [if_neg hl, if_neg hl']

theorem memRead_withRecord {k : List Byte → State → State} (hk : ∀ bytes, RecordBlind (k bytes)) (c : Instr)
    (a : Addr) (n : Nat) (m : Memory) (s : State) :
    sansRecord (memRead c a n k (s.withRecord m)) = sansRecord (memRead c a n k s) := by
  unfold memRead
  by_cases hl : legalBurst s.cfg a n = true
  · have hl' : legalBurst (s.withRecord m).cfg a n = true := hl
    rw [if_pos hl, if_pos hl', State.dataAt_withRecord, afterRead_of_withRecord]
    cases s.dataAt 0 n with
    | some bytes => exact congrArg Host.Outcome.next ((hk bytes).congr rfl)
    | none => rfl
  · have hl' : ¬legalBurst (s.withRecord m).cfg a n = true := hl
    rw [if_neg hl, if_neg hl']

/-- The event at a position depends on the record only in what it leaves in the record. -/
theorem perform_withRecord {a : Action} (ha : a.recordBlind) (c : Instr) (m : Memory) (s : State) :
    sansRecord (perform c a (s.withRecord m)) = sansRecord (perform c a s) := by
  cases a with
  | write addr bytes k => exact memWrite_withRecord ha c addr bytes m s
  | read addr n k => exact memRead_withRecord ha c addr n m s
  | lineHigh k => exact RecordBlind.answered ha (s.okAt 0) c _ (by rw [afterHigh_of_withRecord])
  | lineLow k => exact RecordBlind.answered ha (s.okAt 0) c _ (by rw [afterLow_of_withRecord]; rfl)
  | delay d k => exact congrArg Host.Outcome.next (RecordBlind.congr ha rfl)
  | result r => rfl
  | fault f => rfl
  | refuse r => rfl

/-! ### An instruction -/

/-- While a command runs another one is refused (R235). -/
theorem exec_other_command {i : Instr} {s : State} {p : Pos} (hp : s.pc = .running p) (hi : i.isCommand = true)
    (hc : ¬p.command = i) : exec i s = .refused .commandWhileBusy := by
  cases i with
  | rd a => cases hi
  | wr a => cases hi
  | _ =>
    cases p <;>
    simp [exec, execInit, execReset, execSetMode, execSetModemConfig, execSetSyncWords, execSetTxPower,
      execSetFrequency, execSend, execIsMessageAvailable, execReceive, execReadTemperature, execRssi,
      execReadAllRegisters, resume, hp, hc]

/-- Inside a command an instruction performs the event at the position or is refused; the position and its event
alone decide which. -/
theorem exec_running_cases (i : Instr) (p : Pos) (a : Action) :
    (∀ s, s.pc = .running p → actionAt p s = a → exec i s = perform p.command a s) ∨
    (∃ r, ∀ s, s.pc = .running p → actionAt p s = a → exec i s = .refused r) := by
  by_cases hi : i.isCommand = true
  · by_cases hc : p.command = i
    · subst hc
      exact .inl fun s hp ha => ha ▸ exec_command hp hi
    · exact .inr ⟨.commandWhileBusy, fun s hp _ => exec_other_command hp hi hc⟩
  · cases i with
    | rd addr =>
      cases a with
      | read b n k =>
        by_cases hb : b = addr
        · exact .inl fun s hp ha => by simp [exec, execRd, hp, ha, hb]
        · exact .inr ⟨.noSuchTransaction, fun s hp ha => by simp [exec, execRd, hp, ha, hb]⟩
      | _ => exact .inr ⟨.noSuchTransaction, fun s hp ha => by simp [exec, execRd, hp, ha]⟩
    | wr addr =>
      cases a with
      | write b bytes k =>
        by_cases hb : b = addr
        · exact .inl fun s hp ha => by simp [exec, execWr, hp, ha, hb]
        · exact .inr ⟨.noSuchTransaction, fun s hp ha => by simp [exec, execWr, hp, ha, hb]⟩
      | _ => exact .inr ⟨.noSuchTransaction, fun s hp ha => by simp [exec, execWr, hp, ha]⟩
    | _ => exact absurd rfl hi

theorem exec_running_withRecord {s : State} {p : Pos} (hp : s.pc = .running p) (i : Instr) (m : Memory) :
    sansRecord (exec i (s.withRecord m)) = sansRecord (exec i s) := by
  obtain h | ⟨r, h⟩ := exec_running_cases i p (actionAt p s)
  · rw [h s hp rfl, h (s.withRecord m) hp (actionAt_withRecord p m s)]
    exact perform_withRecord (actionAt_recordBlind p s) p.command m s
  · rw [h s hp rfl, h (s.withRecord m) hp (actionAt_withRecord p m s)]

/-- At `Idle` an instruction is accepted, with a continuation that does not look at the record, or is refused; the
configuration alone decides which (R99, R160). -/
theorem exec_idle_cases (i : Instr) (cfg : Cfg) :
    (∃ k, RecordBlind k ∧ ∀ s, s.pc = .idle → s.cfg = cfg → exec i s = accept i k s) ∨
    (∃ r, ∀ s, s.pc = .idle → s.cfg = cfg → exec i s = .refused r) := by
  cases i with
  | rd a => exact .inr ⟨.noSuchTransaction, fun s hs _ => by simp [exec, execRd, hs]⟩
  | wr a => exact .inr ⟨.noSuchTransaction, fun s hs _ => by simp [exec, execWr, hs]⟩
  | init => exact .inl ⟨_, recordBlind_goto _, fun _ hs _ => exec_init_of_idle hs⟩
  | reset => exact .inl ⟨_, recordBlind_goto _, fun _ hs _ => exec_reset_of_idle hs⟩
  | setMode target =>
    exact .inl ⟨_, recordBlind_enterSetMode (recordBlind_finishOk _ _) _ _,
      fun _ hs _ => exec_setMode_of_idle hs target⟩
  | setModemConfig i =>
    cases hv : presetAt cfg i with
    | some v => exact .inl ⟨_, recordBlind_goto _, fun _ hs hc => exec_setModemConfig_of_idle hs (hc ▸ hv)⟩
    | none => exact .inr ⟨.presetNotInTable, fun s hs hc => by simp [exec, execSetModemConfig, hs, hc, hv]⟩
  | setSyncWords policy words =>
    exact .inl ⟨_, recordBlind_enterSetSyncWords _ _ _, fun _ hs _ => exec_setSyncWords_of_idle hs policy words⟩
  | setTxPower power =>
    exact .inl ⟨_, recordBlind_enterSetTxPower _ _, fun _ hs _ => exec_setTxPower_of_idle hs power⟩
  | setFrequency f =>
    by_cases hf : frfWord cfg f < 2 ^ 24
    · exact .inl ⟨_, recordBlind_goto _, fun _ hs hc => exec_setFrequency_of_idle hs (hc ▸ hf)⟩
    · have hnone := frfBytes_of_ge (Nat.not_lt.mp hf)
      exact .inr ⟨.frequencyWordTooLarge, fun s hs hc => by simp [exec, execSetFrequency, hs, hc, hnone]⟩
  | send payload =>
    exact .inl ⟨_, (recordBlind_raise _ _).ite (recordBlind_goto _) fun _ _ => Iff.rfl,
      fun _ hs _ => exec_send_of_idle hs payload⟩
  | isMessageAvailable =>
    exact .inl ⟨_, (recordBlind_goto _).ite (recordBlind_raise _ _) fun _ _ => Iff.rfl,
      fun _ hs _ => exec_isMessageAvailable_of_idle hs⟩
  | receive capacity => exact .inl ⟨_, recordBlind_goto _, fun _ hs _ => exec_receive_of_idle hs capacity⟩
  | readTemperature => exact .inl ⟨_, recordBlind_goto _, fun _ hs _ => exec_readTemperature_of_idle hs⟩
  | rssi => exact .inl ⟨_, recordBlind_goto _, fun _ hs _ => exec_rssi_of_idle hs⟩
  | readAllRegisters => exact .inl ⟨_, recordBlind_goto _, fun _ hs _ => exec_readAllRegisters_of_idle hs⟩

theorem exec_idle_withRecord {s : State} (hs : s.pc = .idle) (i : Instr) (m : Memory) :
    sansRecord (exec i (s.withRecord m)) = sansRecord (exec i s) := by
  obtain ⟨k, hk, h⟩ | ⟨r, h⟩ := exec_idle_cases i s.cfg
  · rw [h s hs rfl, h (s.withRecord m) hs rfl]
    exact congrArg Host.Outcome.next (hk.congr rfl)
  · rw [h s hs rfl, h (s.withRecord m) hs rfl]

/-- Settles O18: neither acceptance nor the event at a position, nor what follows it, looks at the record. -/
theorem registerRecordIsNeverRead : Obligations.RegisterRecordIsNeverRead := by
  intro i s m
  change sansRecord (exec i (s.withRecord m)) = sansRecord (exec i s)
  cases hp : s.pc with
  | idle => exact exec_idle_withRecord hp i m
  | running p => exact exec_running_withRecord hp i m

end Sys2Proof.Machine
end

section
/-! Decode and encode (R80, R95 to R97): each reads back what the other writes. -/

namespace Sys2Proof

/-! ### The bus: bit 7 is the direction, the other bits the address -/

theorem decodeBus_of_bit_set {o : Byte} (h : o.getLsbD 7 = true) : decodeBus o = .wr (o.setWidth 7) :=
  if_pos h

theorem decodeBus_of_bit_clear {o : Byte} (h : o.getLsbD 7 = false) : decodeBus o = .rd (o.setWidth 7) :=
  if_neg (Bool.eq_false_iff.mp h)

theorem decodeBus_rdOp (a : Addr) : decodeBus (rdOp (addrByte a)) = .rd a := by
  have hdir : (rdOp (addrByte a)).getLsbD 7 = false := by simp [rdOp, addrByte]
  have haddr : (rdOp (addrByte a)).setWidth 7 = a := by
    simpa [rdOp, addrByte] using BitVec.and_allOnes (x := a)
  rw [decodeBus_of_bit_clear hdir, haddr]

theorem decodeBus_wrOp (a : Addr) : decodeBus (wrOp (addrByte a)) = .wr a := by
  have hdir : (wrOp (addrByte a)).getLsbD 7 = true := by simp [wrOp, addrByte]
  have haddr : (wrOp (addrByte a)).setWidth 7 = a := by simp [wrOp, addrByte]
  rw [decodeBus_of_bit_set hdir, haddr]

theorem rdOp_of_bit_clear {o : Byte} (h : o.getLsbD 7 = false) : rdOp (addrByte (o.setWidth 7)) = o := by
  revert o; decide

theorem wrOp_of_bit_set {o : Byte} (h : o.getLsbD 7 = true) : wrOp (addrByte (o.setWidth 7)) = o := by
  revert o; decide

theorem encode_decodeBus (o : Byte) : encode (decodeBus o) = .bus o := by
  cases hd : o.getLsbD 7 with
  | true => rw [decodeBus_of_bit_set hd, encode, wrOp_of_bit_set hd]
  | false => rw [decodeBus_of_bit_clear hd, encode, rdOp_of_bit_clear hd]

/-! ### The command port -/

theorem decodeMode_encodeMode (m : Mode) : decodeMode (encodeMode m) = .ok m := by
  cases m <;> rfl

theorem decodeLane_of_fits {l : List Byte} (h : laneFits l = true) : decodeLane l = .ok l :=
  if_pos h

/-- A well-formed instruction is read back from its word; bus instructions need no well-formedness. -/
theorem decode_encode {i : Instr} (h : i.isCommand = true → i.wellFormed = true) : decode (encode i) = .ok i := by
  cases i with
  | rd a => exact congrArg Except.ok (decodeBus_rdOp a)
  | wr a => exact congrArg Except.ok (decodeBus_wrOp a)
  | setMode target => exact congrArg (Except.map Instr.setMode) (decodeMode_encodeMode target)
  | setSyncWords policy words =>
    have hl : decodeLane words = .ok words := decodeLane_of_fits (h rfl)
    cases policy <;> simp [encode, decode, decodeCmd, decodePolicy, hl]
  | send payload => exact congrArg (Except.map Instr.send) (decodeLane_of_fits (h rfl))
  | _ => rfl

/-- Settles O3: on the bus bit 7 separates the two opcodes, on the port each code selects its command and each operand
lane is read back. -/
theorem decodeOfEncodeIsTheInstruction : Obligations.DecodeOfEncodeIsTheInstruction :=
  ⟨fun _ h => decode_encode fun _ => h, fun _ => ⟨decode_encode nofun, decode_encode nofun⟩, encode_decodeBus⟩

/-- Settles O2: each word but the last is the encoding of the instruction it stands for. -/
theorem writtenOutWordsDecode : Obligations.WrittenOutWordsDecode :=
  ⟨decode_encode (i := .wr 0x01) nofun, decode_encode (i := .rd 0x6F) nofun, decode_encode (i := .init) fun _ => rfl,
    decode_encode (i := .setMode .transmit) fun _ => rfl,
    decode_encode (i := .setSyncWords (.manualFill 1) [0xAA, 0xBB, 0xCC, 0xDD]) fun _ => rfl,
    decode_encode (i := .setFrequency 868) fun _ => rfl, decode_encode (i := .send [0x48, 0x69]) fun _ => rfl,
    decode_encode (i := .receive 16) fun _ => rfl, decode_encode (i := .rssi) fun _ => rfl, rfl⟩

end Sys2Proof
end

section
/-! What the command port refuses (R99): a word that is no command by the decoder's error, a selector and a frequency
outside their domains by the command. -/

namespace Sys2Proof

theorem decodeCmd_of_reserved_code {w : CmdWord} (h : 13 ≤ w.code.toNat) :
    decodeCmd w = .error .reservedCommandCode := by
  unfold decodeCmd
  split
  case h_14 => rfl
  all_goals omega

theorem decodeMode_of_illegal_tag {tag : BitVec 3} (h : 5 ≤ tag.toNat) : decodeMode tag = .error .illegalModeTag := by
  unfold decodeMode
  split
  case h_6 => rfl
  all_goals omega

theorem decodeCmd_of_illegal_mode_tag {w : CmdWord} (hc : w.code = 2) (h : 5 ≤ w.mode.toNat) :
    decodeCmd w = .error .illegalModeTag := by
  simp [decodeCmd, hc, decodeMode_of_illegal_tag h, Except.map]

theorem decodeCmd_of_illegal_policy_tag {w : CmdWord} (hc : w.code = 4) (h : w.policyTag = 3) :
    decodeCmd w = .error .illegalPolicyTag := by
  simp [decodeCmd, hc, decodePolicy, h]

theorem decodeCmd_setModemConfig {w : CmdWord} (hc : w.code = 3) : decodeCmd w = .ok (.setModemConfig w.preset) := by
  simp [decodeCmd, hc]

theorem decodeCmd_setFrequency {w : CmdWord} (hc : w.code = 6) : decodeCmd w = .ok (.setFrequency w.freqMhz) := by
  simp [decodeCmd, hc]

namespace Machine

/-- At `Idle` a word that is no command is refused at the port. -/
theorem step_of_port_error {s : State} {w : CmdWord} {rest : List CmdWord} {e : DecodeError} (hs : s.pc = .idle)
    (hw : s.port = w :: rest) (hd : decodeCmd w = .error e) : step s = .refused (.illegalCommandWord e) := by
  simp [step, hs, hw, hd]

theorem exec_setModemConfig_outside {s : State} {i : BitVec 8} (hs : s.pc = .idle)
    (hi : s.cfg.presets.length ≤ i.toNat) : exec (.setModemConfig i) s = .refused .presetNotInTable := by
  have hnone : presetAt s.cfg i = none := List.getElem?_eq_none hi
  simp [exec, execSetModemConfig, hs, hnone]

theorem exec_setFrequency_too_large {s : State} {f : BitVec 16} (hs : s.pc = .idle) (hf : 2 ^ 24 ≤ frfWord s.cfg f) :
    exec (.setFrequency f) s = .refused .frequencyWordTooLarge := by
  simp [exec, execSetFrequency, hs, frfBytes_of_ge hf]

/-- Settles O4: three kinds of word have no command to decode to, two decode to a command that refuses its operand. -/
theorem portRefusesReservedAndIllegalWords : Obligations.PortRefusesReservedAndIllegalWords := by
  intro s w rest hs hw
  refine ⟨fun h => ?_, fun hc h => ?_, fun hc h => ?_, fun hc h => ?_, fun hc h => ?_⟩
  · exact step_of_port_error hs hw (decodeCmd_of_reserved_code h)
  · exact step_of_port_error hs hw (decodeCmd_of_illegal_mode_tag hc h)
  · exact step_of_port_error hs hw (decodeCmd_of_illegal_policy_tag hc h)
  · exact (step_of_port hs hw (decodeCmd_setModemConfig hc)).trans (exec_setModemConfig_outside hs h)
  · exact (step_of_port hs hw (decodeCmd_setFrequency hc)).trans (exec_setFrequency_too_large hs h)

end Machine

end Sys2Proof
end

section
/-! The addresses on the bus (R82, R99): a transaction that was emitted was legal, and the registers of a legal one
are enumerated. -/

namespace Sys2Proof.Machine

theorem legalBurst_iff {cfg : Cfg} {a : Addr} {n : Nat} : legalBurst cfg a n = true ↔
    isEnumerated a.toNat = true ∧ (a = cfg.aFifo ∨ ∀ j < n, isEnumerated (a.toNat + j) = true) := by
  simp [legalBurst]

/-- A transaction that the block may put on the bus; the other events are none. -/
def Event.Legal (cfg : Cfg) : Event → Prop
  | .busW a bytes _ => legalBurst cfg a bytes.length = true
  | .busR a n _ => legalBurst cfg a n = true
  | .cmd _ => True
  | .res _ => True
  | .rstHigh _ => True
  | .rstLow _ => True
  | .delay _ => True

theorem perform_emits_legal {c : Instr} {a : Action} {s t : State} (hq : a.quiet) (h : perform c a s = .next t) :
    ∃ e, t.trace = s.trace ++ [e] ∧ e.Legal s.cfg := by
  obtain ⟨addr, bytes, k, -, hl, q⟩ | ⟨addr, n, k, -, hl, q⟩ | ⟨k, -, q⟩ | ⟨k, -, q⟩ | ⟨d, k, -, q⟩ | ⟨r, -, rfl⟩ :=
    perform_next hq h
  · exact ⟨_, q.trace.trans (State.afterWrite_trace addr bytes s), hl⟩
  · exact ⟨_, q.trace.trans (State.afterRead_trace addr n s), hl⟩
  · exact ⟨_, q.trace.trans (State.afterHigh_trace s), trivial⟩
  · exact ⟨_, q.trace.trans (State.afterLow_trace s), trivial⟩
  · exact ⟨_, q.trace, trivial⟩
  · exact ⟨_, rfl, trivial⟩

/-- The event of an instruction, if it is a transaction, is a legal one. -/
theorem legal_of_emitted {i : Instr} {s t : State} {e : Event} (h : exec i s = .next t)
    (he : t.trace = s.trace ++ [e]) : e.Legal s.cfg := by
  have hlegal : ∃ e', t.trace = s.trace ++ [e'] ∧ e'.Legal s.cfg := by
    cases hp : s.pc with
    | idle => exact ⟨_, (exec_idle_next hp h).trace, trivial⟩
    | running p => exact perform_emits_legal (actionAt_quiet p s) (exec_running_next hp h)
  obtain ⟨e', ht, hl⟩ := hlegal
  obtain rfl : e' = e := by simpa using ht.symm.trans he
  exact hl

/-- Settles O12: the event was legal, which says of the address and of the registers walked on to that they are
enumerated. -/
theorem onlyEnumeratedAddressesAreEmitted : Obligations.OnlyEnumeratedAddressesAreEmitted := by
  intro i s t h
  exact ⟨fun a bytes ok ht => legalBurst_iff.mp (legal_of_emitted (e := .busW a bytes ok) h ht),
    fun a n bytes ht => legalBurst_iff.mp (legal_of_emitted (e := .busR a n bytes) h ht)⟩

end Sys2Proof.Machine
end

section
/-! A running command goes on (R82, R99): with a configuration of R9 every transaction of the rules is legal, and the
checks a command has passed leave it nothing to refuse; only the underflow of `receive` stops it. -/

namespace Sys2Proof.Machine

/-- An action that is one event and, if a transaction, a legal one. -/
def Action.Performable (cfg : Cfg) : Action → Prop
  | .write a bytes _ => legalBurst cfg a bytes.length = true
  | .read a n _ => legalBurst cfg a n = true
  | .lineHigh _ => True
  | .lineLow _ => True
  | .delay _ _ => True
  | .result _ => True
  | .fault _ => False
  | .refuse _ => False

theorem perform_of_performable {a : Action} {s : State} (c : Instr) (h : a.Performable s.cfg) :
    ∃ t, perform c a s = .next t := by
  cases a with
  | write addr bytes k => exact ⟨_, if_pos h⟩
  | read addr n k => exact ⟨_, if_pos h⟩
  | fault f => exact h.elim
  | refuse r => exact h.elim
  | _ => exact ⟨_, rfl⟩

/-! ### The bodies that a `call` runs in line -/

theorem resetAct_performable (cfg : Cfg) (wrap : ResetPos → Pos) (k : State → State) (p : ResetPos) :
    (resetAct wrap k p).Performable cfg := by
  cases p <;> trivial

section Valid
variable {s : State} (hv : s.cfg.valid = true)
include hv

theorem waitAct_performable {addr : Addr} (ha : addr ∈ s.cfg.singleAddresses) (mask : Byte) (want : Bool)
    (wrap : WaitPos → Pos) (k : State → State) (w : WaitPos) :
    (waitAct addr mask want wrap k w s).Performable s.cfg := by
  cases w with
  | poll => exact legal_single hv ha
  | sleep => trivial

theorem setModeAct_performable (target : Mode) (wrap : SetModePos → Pos) (k : State → State) (p : SetModePos) :
    (setModeAct target wrap k p s).Performable s.cfg := by
  cases p with
  | ready w => dsimp only [setModeAct]; exact waitAct_performable hv (by simp [Cfg.singleAddresses]) _ _ _ _ w
  | _ => exact legal_single hv (by simp [Cfg.singleAddresses])

theorem modemAct_performable {i : BitVec 8} (hi : (presetAt s.cfg i).isSome = true) (wrap : ModemPos → Pos)
    (k : State → State) (p : ModemPos) : (modemAct i wrap k p s).Performable s.cfg := by
  obtain ⟨v, hpreset⟩ := Option.isSome_iff_exists.mp hi
  obtain ⟨hmodul, hrxbw, -⟩ := legal_bursts hv
  simp only [modemAct, hpreset]
  cases p with
  | modulation => exact hmodul
  | bandwidth => exact hrxbw
  | packet => exact legal_single hv (by simp [Cfg.singleAddresses])

theorem syncWordsAct_performable (policy : SyncPolicy) {words : List Byte} (hw : badWordCount words = false)
    (k : State → State) : (syncWordsAct policy words k s).Performable s.cfg := by
  obtain ⟨-, -, -, -, hsync, -⟩ := legal_bursts hv
  exact hsync words hw

theorem txPowerAct_performable (power : BitVec 8) (k : State → State) :
    (txPowerAct power k s).Performable s.cfg :=
  legal_single hv (by simp [Cfg.singleAddresses])

theorem frequencyAct_performable {f : BitVec 16} (hf : (frfBytes s.cfg f).isSome = true) (k : State → State) :
    (frequencyAct f k s).Performable s.cfg := by
  obtain ⟨bytes, hbytes⟩ := Option.isSome_iff_exists.mp hf
  obtain ⟨-, -, hfrf, -⟩ := legal_bursts hv
  simpa only [frequencyAct, hbytes, Action.Performable, frfBytes_length hbytes] using hfrf

/-! ### Each command -/

theorem initAct_performable (p : InitPos) : (initAct p s).Performable s.cfg := by
  cases p with
  | pulse q => dsimp only [initAct]; exact resetAct_performable _ _ _ q
  | syncWords => exact syncWordsAct_performable hv _ (initSyncWords_of_valid hv) _
  | modem q => dsimp only [initAct]; exact modemAct_performable hv (Option.isSome_iff_exists.mpr (initPreset_of_valid hv)) _ _ q
  | preamble =>
    obtain ⟨-, -, -, hpreamble, -⟩ := legal_bursts hv
    exact hpreamble
  | txPower => exact txPowerAct_performable hv _ _
  | frequency => exact frequencyAct_performable hv (Option.isSome_iff_exists.mpr (initFreq_of_valid hv)) _
  | toStandby q => dsimp only [initAct]; exact setModeAct_performable hv _ _ _ q
  | _ => exact legal_single hv (by simp [Cfg.singleAddresses])

theorem sendAct_performable (payload : List Byte) (p : SendPos) : (sendAct payload p s).Performable s.cfg := by
  cases p with
  | fifo =>
    obtain ⟨-, -, -, -, -, hfifo⟩ := legal_bursts hv
    exact hfifo _
  | toTransmit q => dsimp only [sendAct]; exact setModeAct_performable hv _ _ _ q
  | sent w => dsimp only [sendAct]; exact waitAct_performable hv (by simp [Cfg.singleAddresses]) _ _ _ _ w
  | toStandby q => dsimp only [sendAct]; exact setModeAct_performable hv _ _ _ q

theorem receiveAct_performable (capacity : Nat) {p : ReceivePos} (hp : p ≠ .underflow) :
    (receiveAct capacity p s).Performable s.cfg := by
  obtain ⟨-, -, -, -, -, hfifo⟩ := legal_bursts hv
  cases p with
  | underflow => exact absurd rfl hp
  | _ => exact hfifo _

theorem readTemperatureAct_performable (p : TempPos) : (readTemperatureAct p s).Performable s.cfg := by
  cases p with
  | running w => dsimp only [readTemperatureAct]; exact waitAct_performable hv (by simp [Cfg.singleAddresses]) _ _ _ _ w
  | _ => exact legal_single hv (by simp [Cfg.singleAddresses])

end Valid

theorem readAllRegistersAct_performable (cfg : Cfg) (p : DumpPos) : (readAllRegistersAct p).Performable cfg := by
  cases p with
  | core => exact legalBurst_core (by decide) (by decide)
  | _ => exact legalBurst_one (by decide)

/-- What a position inherits from its command's checks makes its action one that can be performed. -/
theorem actionAt_performable {s : State} {p : Pos} (hv : s.cfg.valid = true) (hok : posOk s p)
    (hp : ∀ capacity, p ≠ .receive capacity .underflow) : (actionAt p s).Performable s.cfg := by
  cases p with
  | init q => exact initAct_performable hv q
  | reset q => exact resetAct_performable _ _ _ q
  | setMode target q => exact setModeAct_performable hv _ _ _ q
  | setModemConfig i q => exact modemAct_performable hv hok _ _ q
  | setSyncWords policy words => exact syncWordsAct_performable hv policy hok _
  | setTxPower power => exact txPowerAct_performable hv _ _
  | setFrequency f => exact frequencyAct_performable hv hok _
  | send payload q => exact sendAct_performable hv payload q
  | isMessageAvailable => exact legal_single hv (by simp [Cfg.singleAddresses])
  | receive capacity q => exact receiveAct_performable hv capacity fun hq => hp capacity (hq ▸ rfl)
  | readTemperature q => exact readTemperatureAct_performable hv q
  | rssi => exact legal_single hv (by simp [Cfg.singleAddresses])
  | readAllRegisters q => exact readAllRegistersAct_performable _ q
  | finish c r => trivial

/-- The instruction running at a position past its checks is a host command. -/
theorem isCommand_of_posOk {s : State} {p : Pos} (hok : posOk s p) : p.command.isCommand = true := by
  cases p with
  | finish c r => exact hok.1
  | _ => rfl

/-- Settles O23: the action at every position but the underflow can be performed, and `step` performs it. -/
theorem runningCommandNeverStopsExceptOnUnderflow : Obligations.RunningCommandNeverStopsExceptOnUnderflow := by
  intro s p hinv hp
  have hok : posOk s p := by simpa only [hp, pcOk] using hinv.pc
  have hstep : step s = perform p.command (actionAt p s) s :=
    (step_running hp).trans (exec_instrAt hp (isCommand_of_posOk hok))
  rw [hstep]
  by_cases hu : ∃ capacity, p = .receive capacity .underflow
  · obtain ⟨capacity, rfl⟩ := hu
    exact .inr ⟨⟨capacity, rfl⟩, rfl⟩
  · exact .inl (perform_of_performable _ (actionAt_performable hinv.cfg hok (not_exists.mp hu)))

end Sys2Proof.Machine
end

section
/-! The mode byte (R84): bits 4:2 are the code, every other bit is that of the byte read. -/

namespace Sys2Proof.Machine

/-- The mask of R84 clears bits 4:2 and no other. -/
theorem getLsbD_modeMask {j : Nat} (hj : j < 8) : (0xE3#8).getLsbD j = !(decide (2 ≤ j) && decide (j < 5)) := by
  revert j; decide

theorem getLsbD_modeByte (old : Byte) (code : BitVec 3) {j : Nat} (hj : j < 8) :
    (modeByte old code).getLsbD j = if 2 ≤ j ∧ j < 5 then code.getLsbD (j - 2) else old.getLsbD j := by
  simp only [modeByte, BitVec.getLsbD_or, BitVec.getLsbD_and, getLsbD_modeMask hj, BitVec.getLsbD_shiftLeft,
    BitVec.getLsbD_setWidth]
  have hle : j - 2 < 8 := by omega
  by_cases h2 : 2 ≤ j
  · have hge : ¬j ≤ 1 := by omega
    by_cases h5 : j < 5
    · simp [h2, h5, hj, hle, hge]
    · have hcode : code.getLsbD (j - 2) = false := BitVec.getLsbD_of_ge _ _ (by omega)
      simp [h5, hj, hcode]
  · have hlow : j ≤ 1 := by omega
    simp [h2, hj, hlow]

theorem modeField_eq_four_mul (code : BitVec 3) : code.setWidth 8 <<< 2 = BitVec.ofNat 8 (4 * code.toNat) := by
  apply BitVec.eq_of_toNat_eq
  have := code.isLt
  simp [Nat.shiftLeft_eq]
  omega

theorem modeByte_modeField (old : Byte) (code : BitVec 3) : (modeByte old code).extractLsb' 2 3 = code := by
  apply BitVec.eq_of_getLsbD_eq
  intro j hj
  rw [BitVec.getLsbD_extractLsb', getLsbD_modeByte _ _ (by omega), if_pos (by omega)]
  simp [hj]

/-- A field that does not meet bits 4:2 is the one of the byte read. -/
theorem modeByte_otherField (old : Byte) (code : BitVec 3) {start len : Nat} (hlen : start + len ≤ 8)
    (h : start + len ≤ 2 ∨ 5 ≤ start) :
    (modeByte old code).extractLsb' start len = old.extractLsb' start len := by
  apply BitVec.eq_of_getLsbD_eq
  intro j hj
  rw [BitVec.getLsbD_extractLsb', BitVec.getLsbD_extractLsb', getLsbD_modeByte _ _ (by omega), if_neg (by omega)]

/-- Settles O29: the field of the code, the two others, the formula; the default codes' values by evaluation. -/
theorem modeByteReplacesOnlyTheModeField : Obligations.ModeByteReplacesOnlyTheModeField := by
  intro old code
  have hformula : modeByte old code = (old &&& 0xE3#8) ||| BitVec.ofNat 8 (4 * code.toNat) := by
    rw [modeByte, modeField_eq_four_mul]
  exact ⟨modeByte_modeField old code, modeByte_otherField old code (by decide) (by decide),
    modeByte_otherField old code (by decide) (by decide), hformula, rfl, rfl, rfl, rfl, rfl⟩

end Sys2Proof.Machine
end

section
/-! The bus opcodes (R122): setting bit 7 of the read opcode gives the write opcode, clearing it goes back, and at an
address the read opcode is the address itself. -/

namespace Sys2Proof

theorem wrOp_eq_rdOp_or (r : Byte) : wrOp r = rdOp r ||| 0x80#8 := by
  revert r; decide

theorem rdOp_eq_wrOp_and (r : Byte) : rdOp r = wrOp r &&& 0x7F#8 := by
  simp [rdOp, wrOp, BitVec.and_or_distrib_right]

theorem rdOp_addrByte (a : Addr) : rdOp (addrByte a) = addrByte a := by
  revert a; decide

theorem rdOp_addrByte_injective {a b : Addr} (h : rdOp (addrByte a) = rdOp (addrByte b)) : a = b := by
  have hdecode := congrArg decodeBus h
  rw [decodeBus_rdOp, decodeBus_rdOp] at hdecode
  exact Instr.rd.inj hdecode

theorem wrOp_addrByte_injective {a b : Addr} (h : wrOp (addrByte a) = wrOp (addrByte b)) : a = b := by
  have hdecode := congrArg decodeBus h
  rw [decodeBus_wrOp, decodeBus_wrOp] at hdecode
  exact Instr.wr.inj hdecode

/-- The two opcodes decode to different instructions, whatever the addresses. -/
theorem rdOp_addrByte_ne_wrOp (a b : Addr) : rdOp (addrByte a) ≠ wrOp (addrByte b) := by
  intro h
  have hdecode := congrArg decodeBus h
  rw [decodeBus_rdOp, decodeBus_wrOp] at hdecode
  cases hdecode

/-- Settles O1: the two laws on every byte; the decoder tells the opcodes apart and reads the address back from each. -/
theorem busOpcodesDifferInBitSevenOnly : Obligations.BusOpcodesDifferInBitSevenOnly := by
  have haddr (o : Byte) : o.setWidth 7 = o.extractLsb' 0 7 := BitVec.setWidth_eq_extractLsb' (by decide)
  refine ⟨fun r => ⟨wrOp_eq_rdOp_or r, rdOp_eq_wrOp_and r⟩, fun a => ⟨rdOp_addrByte_ne_wrOp a a, ?_, ?_⟩,
    fun a b => ⟨rdOp_addrByte_injective, wrOp_addrByte_injective⟩, fun o => ⟨fun h => ?_, fun h => ?_⟩⟩
  · rw [← rdOp_eq_wrOp_and, rdOp_addrByte]
  · rw [← wrOp_eq_rdOp_or]
  · rw [decodeBus_of_bit_set h, haddr]
  · rw [decodeBus_of_bit_clear h, haddr]

end Sys2Proof
end

section
/-! The record of register writes (R123, R51), inside a burst: byte `j` of an acknowledged one is in the register `j`
places on, and of a failed one nothing is known in any register it covers. -/

namespace Sys2Proof.Machine

namespace Memory

theorem read_storeBurst_inside {bytes : List Byte} {j : Nat} (hj : j < bytes.length) (base : Nat) (m : Memory) :
    read (base + j) (storeBurst base bytes m) = some bytes[j] := by
  induction bytes generalizing base j m with
  | nil => cases hj
  | cons b bs ih =>
    cases j with
    | zero =>
      calc read base (storeBurst (base + 1) bs (write base b m))
          = read base (write base b m) := read_storeBurst_outside _ (.inl (Nat.lt_succ_self base))
        _ = some b := read_write_self base b m
    | succ j =>
      rw [show base + (j + 1) = base + 1 + j by omega]
      exact ih (Nat.lt_of_succ_lt_succ hj) (base + 1) (write base b m)

/-- A filter that drops every entry of a register leaves nothing known of it. -/
theorem read_filter_of_dropped {f : Host.Cell → Bool} {r : Nat} (hf : ∀ b, f (r, b) = false) (m : Memory) :
    read r (m.filter f) = none := by
  induction m with
  | nil => rfl
  | cons c m ih =>
    obtain ⟨x, v⟩ := c
    by_cases hx : r = x
    · subst hx; simpa [hf] using ih
    · rw [List.filter_cons]
      split <;> simpa [read, hx] using ih

theorem read_forgetBurst_inside {n j : Nat} (hj : j < n) (base : Nat) (m : Memory) :
    read (base + j) (forgetBurst base n m) = none :=
  read_filter_of_dropped (fun _ => by simpa using hj) m

end Memory

theorem read_recordWrite_ok {a : Addr} {bytes : List Byte} {j : Nat} {s : State} (ha : a ≠ s.cfg.aFifo)
    (hj : j < bytes.length) : Memory.read (a.toNat + j) (s.recordWrite a bytes true).chip = some bytes[j] := by
  rw [State.recordWrite_chip, if_neg ha]
  exact Memory.read_storeBurst_inside hj a.toNat s.chip

theorem read_recordWrite_fail {a : Addr} {bytes : List Byte} {j : Nat} {s : State} (ha : a ≠ s.cfg.aFifo)
    (hj : j < bytes.length) : Memory.read (a.toNat + j) (s.recordWrite a bytes false).chip = none := by
  rw [State.recordWrite_chip, if_neg ha]
  exact Memory.read_forgetBurst_inside hj a.toNat s.chip

theorem recordWrite_fifo_chip {a : Addr} {s : State} (ha : a = s.cfg.aFifo) (bytes : List Byte) (ok : Bool) :
    (s.recordWrite a bytes ok).chip = s.chip := by
  rw [State.recordWrite_chip, if_pos ha]

/-- Settles O19: the registers inside the burst by the answer, those outside it untouched, none at the FIFO address. -/
theorem burstWritesConsecutiveRegisters : Obligations.BurstWritesConsecutiveRegisters := by
  intro s a bytes hwf
  refine ⟨fun ok => wf_recordWrite hwf, fun ok ha => recordWrite_fifo_chip ha bytes ok, fun ha => ⟨?_, ?_, ?_⟩⟩
  · exact fun j hj => read_recordWrite_ok ha hj
  · exact fun j hj => read_recordWrite_fail ha hj
  · exact fun r ok hr => read_recordWrite_outside ok s (.inr hr)

end Sys2Proof.Machine
end

section
/-! The cached mode (R177 a): what follows an event keeps it, at every position but the mode-ready poll of
`set_mode`. -/

namespace Sys2Proof.Machine

/-- The target of the `set_mode` whose mode-ready poll is at a position: of the command itself, or of its calls in
`init` and `send` (R172). -/
def Pos.modePoll : Pos → Option Mode
  | .setMode target (.ready .poll) => some target
  | .init (.toStandby (.ready .poll)) => some .standby
  | .send _ (.toTransmit (.ready .poll)) => some .transmit
  | .send _ (.toStandby (.ready .poll)) => some .standby
  | _ => none

/-- What follows an event keeps the cached mode. -/
def KeepsMode (k : State → State) : Prop := ∀ u, (k u).mode = u.mode

/-- An action whose continuation keeps the cached mode. -/
def Action.keepsMode : Action → Prop
  | .write _ _ k => KeepsMode k
  | .read _ _ k => ∀ bytes, KeepsMode (k bytes)
  | .lineHigh k => KeepsMode k
  | .lineLow k => KeepsMode k
  | .delay _ k => KeepsMode k
  | .result _ => True
  | .fault _ => True
  | .refuse _ => True

theorem keepsMode_goto (p : Pos) : KeepsMode (State.goto p) := fun _ => rfl

theorem keepsMode_finishOk (c : Instr) (v : Value) : KeepsMode (State.finishOk c v) := fun _ => rfl

theorem keepsMode_raise (c : Instr) (e : ErrKind) : KeepsMode (State.raise c e) := fun _ => rfl

/-- A branch, each way of which keeps the cached mode. -/
theorem KeepsMode.ite {k l : State → State} (hk : KeepsMode k) (hl : KeepsMode l) (P : State → Prop)
    [DecidablePred P] : KeepsMode (fun u => if P u then k u else l u) := by
  intro u
  dsimp only
  split
  · exact hk u
  · exact hl u

theorem keepsMode_enterSetMode {k : State → State} (h : KeepsMode k) (target : Mode) (wrap : SetModePos → Pos) :
    KeepsMode (enterSetMode target wrap k) := by
  intro u
  unfold enterSetMode
  split
  · rfl
  · exact h u

theorem waitAct_keepsMode {addr : Addr} {mask : Byte} {want : Bool} {wrap : WaitPos → Pos} {k : State → State}
    (h : KeepsMode k) (w : WaitPos) (s : State) : (waitAct addr mask want wrap k w s).keepsMode := by
  cases w with
  | poll => exact fun _ => h.ite (keepsMode_goto _) _
  | sleep => exact keepsMode_goto _

theorem resetAct_keepsMode {wrap : ResetPos → Pos} {k : State → State} (h : KeepsMode k) (p : ResetPos) :
    (resetAct wrap k p).keepsMode := by
  cases p
  case settle => exact h
  all_goals exact keepsMode_goto _

/-- Only the poll goes on to what follows `set_mode`, and to the cache write before it. -/
theorem setModeAct_keepsMode {p : SetModePos} (hp : p ≠ .ready .poll) (target : Mode) (wrap : SetModePos → Pos)
    (k : State → State) (s : State) : (setModeAct target wrap k p s).keepsMode := by
  cases p with
  | ready w =>
    cases w with
    | poll => exact absurd rfl hp
    | sleep => exact keepsMode_goto _
  | readMode => exact fun _ => keepsMode_goto _
  | _ => exact keepsMode_goto _

theorem modemAct_keepsMode {i : BitVec 8} {wrap : ModemPos → Pos} {k : State → State} (h : KeepsMode k)
    (p : ModemPos) (s : State) : (modemAct i wrap k p s).keepsMode := by
  unfold modemAct
  split
  · trivial
  · cases p
    case packet => exact h
    all_goals exact keepsMode_goto _

theorem frequencyAct_keepsMode {f : BitVec 16} {k : State → State} (h : KeepsMode k) (s : State) :
    (frequencyAct f k s).keepsMode := by
  unfold frequencyAct
  split
  · trivial
  · exact h

theorem initAct_keepsMode {p : InitPos} (hp : p ≠ .toStandby (.ready .poll)) (s : State) :
    (initAct p s).keepsMode := by
  cases p with
  | pulse q => dsimp only [initAct]; exact resetAct_keepsMode (keepsMode_goto _) q
  | version => exact fun _ => (keepsMode_goto _).ite (keepsMode_raise _ _) _
  | lna => exact (keepsMode_raise _ _).ite (keepsMode_goto _) _
  | modem q => dsimp only [initAct]; exact modemAct_keepsMode (keepsMode_goto _) q s
  | preamble => exact fun _ => rfl
  | frequency => exact frequencyAct_keepsMode (keepsMode_enterSetMode (keepsMode_finishOk _ _) _ _) s
  | toStandby q =>
    dsimp only [initAct]
    exact setModeAct_keepsMode (fun hq => hp (congrArg InitPos.toStandby hq)) _ _ _ s
  | _ => exact keepsMode_goto _

theorem sendAct_keepsMode (payload : List Byte) {p : SendPos} (ht : p ≠ .toTransmit (.ready .poll))
    (hs : p ≠ .toStandby (.ready .poll)) (s : State) : (sendAct payload p s).keepsMode := by
  cases p with
  | fifo => exact keepsMode_enterSetMode (keepsMode_goto _) _ _
  | toTransmit q =>
    dsimp only [sendAct]
    exact setModeAct_keepsMode (fun hq => ht (congrArg SendPos.toTransmit hq)) _ _ _ s
  | sent w =>
    dsimp only [sendAct]
    exact waitAct_keepsMode (keepsMode_enterSetMode (keepsMode_finishOk _ _) _ _) w s
  | toStandby q =>
    dsimp only [sendAct]
    exact setModeAct_keepsMode (fun hq => hs (congrArg SendPos.toStandby hq)) _ _ _ s

theorem receiveAct_keepsMode (capacity : Nat) (p : ReceivePos) (s : State) :
    (receiveAct capacity p s).keepsMode := by
  cases p with
  | length => exact fun _ => (keepsMode_raise _ _).ite ((keepsMode_goto _).ite (keepsMode_goto _) _) _
  | underflow => trivial
  | header len => exact fun _ => (keepsMode_finishOk _ _).ite (keepsMode_goto _) _
  | payload len => exact fun _ => keepsMode_finishOk _ _

theorem readTemperatureAct_keepsMode (p : TempPos) (s : State) : (readTemperatureAct p s).keepsMode := by
  cases p with
  | start => exact keepsMode_goto _
  | running w => dsimp only [readTemperatureAct]; exact waitAct_keepsMode (keepsMode_goto _) w s
  | raw => exact fun _ => keepsMode_finishOk _ _

/-- Every action but a mode-ready poll keeps the cached mode. -/
theorem actionAt_keepsMode {p : Pos} (hp : p.modePoll = none) (s : State) : (actionAt p s).keepsMode := by
  cases p with
  | init q => exact initAct_keepsMode (by rintro rfl; cases hp) s
  | reset q => exact resetAct_keepsMode (keepsMode_finishOk _ _) q
  | setMode target q => exact setModeAct_keepsMode (by rintro rfl; cases hp) _ _ _ s
  | setModemConfig i q => exact modemAct_keepsMode (keepsMode_finishOk _ _) q s
  | setFrequency f => exact frequencyAct_keepsMode (keepsMode_finishOk _ _) s
  | send payload q => exact sendAct_keepsMode payload (by rintro rfl; cases hp) (by rintro rfl; cases hp) s
  | receive capacity q => exact receiveAct_keepsMode capacity q s
  | readTemperature q => exact readTemperatureAct_keepsMode q s
  | readAllRegisters q =>
    cases q
    case aux6F => exact fun _ => keepsMode_finishOk _ _
    all_goals exact fun _ => keepsMode_goto _
  | isMessageAvailable => exact fun _ _ => rfl
  | rssi => exact fun _ => keepsMode_finishOk _ _
  | finish c r => trivial
  | _ => exact keepsMode_finishOk _ _

/-- A mode-ready poll is a read, so no write stands at one. -/
theorem modePoll_of_write {p : Pos} {s : State} {a : Addr} {bytes : List Byte} {k : State → State}
    (h : actionAt p s = .write a bytes k) : p.modePoll = none := by
  unfold Pos.modePoll
  split
  case h_5 => rfl
  all_goals cases h

end Sys2Proof.Machine
end

section
/-! The bus instructions (R120, R121): each performs the transaction at the position where that is one of its kind at
its address, and is refused elsewhere; a legal transaction goes on whatever it is answered. -/

namespace Sys2Proof.Machine

/-! ### Which transaction a bus instruction is -/

theorem exec_rd_of_read {s : State} {p : Pos} {a : Addr} {n : Nat} {k : List Byte → State → State}
    (hp : s.pc = .running p) (ha : actionAt p s = .read a n k) :
    exec (.rd a) s = perform p.command (.read a n k) s := by
  simp [exec, execRd, hp, ha]

theorem exec_wr_of_write {s : State} {p : Pos} {a : Addr} {bytes : List Byte} {k : State → State}
    (hp : s.pc = .running p) (ha : actionAt p s = .write a bytes k) :
    exec (.wr a) s = perform p.command (.write a bytes k) s := by
  simp [exec, execWr, hp, ha]

theorem exec_rd_of_no_read {s : State} {p : Pos} {a : Addr} (hp : s.pc = .running p)
    (hno : ∀ n k, actionAt p s ≠ .read a n k) : exec (.rd a) s = .refused .noSuchTransaction := by
  cases ha : actionAt p s with
  | read b n k =>
    have hb : b ≠ a := fun hb => hno n k (hb ▸ ha)
    simp [exec, execRd, hp, ha, hb]
  | _ => simp [exec, execRd, hp, ha]

theorem exec_wr_of_no_write {s : State} {p : Pos} {a : Addr} (hp : s.pc = .running p)
    (hno : ∀ bytes k, actionAt p s ≠ .write a bytes k) : exec (.wr a) s = .refused .noSuchTransaction := by
  cases ha : actionAt p s with
  | write b bytes k =>
    have hb : b ≠ a := fun hb => hno bytes k (hb ▸ ha)
    simp [exec, execWr, hp, ha, hb]
  | _ => simp [exec, execWr, hp, ha]

theorem exec_rd_of_idle {s : State} (hs : s.pc = .idle) (a : Addr) :
    exec (.rd a) s = .refused .noSuchTransaction := by
  simp [exec, execRd, hs]

theorem exec_wr_of_idle {s : State} (hs : s.pc = .idle) (a : Addr) :
    exec (.wr a) s = .refused .noSuchTransaction := by
  simp [exec, execWr, hs]

/-! ### A legal transaction -/

theorem memRead_quiet {a : Addr} {n : Nat} {k : List Byte → State → State} {s : State}
    (hl : legalBurst s.cfg a n = true) (hq : ∀ bytes u, Quiet u (k bytes u)) (c : Instr) :
    ∃ t, memRead c a n k s = .next t ∧ Quiet (s.afterRead a n) t := by
  cases hd : s.dataAt 0 n with
  | some bytes => exact ⟨_, memRead_ok hl hd, hq bytes _⟩
  | none => exact ⟨_, memRead_fail hl hd, quiet_raise _ _ _⟩

/-- A legal write whose continuation keeps the cached mode keeps it too, answered `ok` or `fail`. -/
theorem memWrite_quiet {a : Addr} {bytes : List Byte} {k : State → State} {s : State}
    (hl : legalBurst s.cfg a bytes.length = true) (hq : ∀ u, Quiet u (k u)) (hm : KeepsMode k) (c : Instr) :
    ∃ t, memWrite c a bytes k s = .next t ∧ Quiet (s.afterWrite a bytes) t ∧ t.mode = s.mode := by
  cases ho : s.okAt 0 with
  | true => exact ⟨_, memWrite_ok hl ho, hq _, (hm _).trans (State.afterWrite_mode a bytes s)⟩
  | false => exact ⟨_, memWrite_fail hl ho, quiet_raise _ _ _, State.afterWrite_mode a bytes s⟩

/-- Settles O7: the read at the position is performed, and a read is not the preamble write of `init`, so the cached
power is kept. -/
theorem readOpcodeCompletesAsOneTransaction : Obligations.ReadOpcodeCompletesAsOneTransaction := by
  intro s a
  refine ⟨fun p hp => ⟨fun n k ha hl => ?_, exec_rd_of_no_read hp⟩, fun hs => exec_rd_of_idle hs a⟩
  have hq : (actionAt p s).quiet := actionAt_quiet p s
  have hpre : p ≠ .init .preamble := by rintro rfl; cases ha
  have hk : (actionAt p s).keepsPower := actionAt_keepsPower hpre s
  rw [ha] at hq hk
  obtain ⟨t, hnext, q⟩ := memRead_quiet hl hq p.command
  refine ⟨t, (exec_rd_of_read hp ha).trans hnext, ?_⟩
  have hpwr : t.pwr = s.pwr := perform_keeps_pwr hk hnext
  simp [q.trace, q.answers, q.drawn, q.hp, q.line, q.cfg, q.port, q.chip, hpwr, Event.wire, rdOp]

/-- Settles O8: the write at the position is performed; a write is no mode-ready poll, and only the preamble write of
`init` caches a power. -/
theorem writeOpcodeCompletesAsOneTransaction : Obligations.WriteOpcodeCompletesAsOneTransaction := by
  intro s a
  refine ⟨fun p hp => ⟨fun bytes k ha hl => ?_, exec_wr_of_no_write hp⟩, fun hs => exec_wr_of_idle hs a⟩
  have hq : (actionAt p s).quiet := actionAt_quiet p s
  have hm : (actionAt p s).keepsMode := actionAt_keepsMode (modePoll_of_write ha) s
  rw [ha] at hq hm
  obtain ⟨t, hnext, q, hmode⟩ := memWrite_quiet hl hq hm p.command
  have hpwr (hpre : p ≠ .init .preamble) : t.pwr = s.pwr := by
    have hk := actionAt_keepsPower hpre s
    rw [ha] at hk
    exact perform_keeps_pwr hk hnext
  refine ⟨t, (exec_wr_of_write hp ha).trans hnext, ?_⟩
  simpa [q.trace, q.answers, q.drawn, q.hp, q.line, q.cfg, q.port, q.chip, hmode, Event.wire, wrOp] using hpwr

end Sys2Proof.Machine
end

section
/-! A command that ends with a write, and the state after a command that changes nothing but the record of register
writes. -/

namespace Sys2Proof.Machine

/-! ### The state of a running command -/

/-- From `s` to `t` `n` answers were used up; the block's registers, the line, the configuration and the port are
those of `s`. -/
structure OnlyAnswers (n : Nat) (s t : State) : Prop where
  mode : t.mode = s.mode
  pwr : t.pwr = s.pwr
  hp : t.hp = s.hp
  line : t.line = s.line
  cfg : t.cfg = s.cfg
  port : t.port = s.port
  answers : t.answers = s.answers.drop n
  drawn : t.drawn = s.drawn + n

namespace OnlyAnswers
variable {n : Nat} {s t : State} (h : OnlyAnswers n s t)

/-- Acceptance uses no answer. -/
theorem accepted (c : Instr) (s : State) : OnlyAnswers 0 s (s.emit (.cmd c)) where
  mode := rfl
  pwr := rfl
  hp := rfl
  line := rfl
  cfg := rfl
  port := rfl
  answers := rfl
  drawn := rfl

include h

theorem goto (p : Pos) : OnlyAnswers n s (t.goto p) :=
  ⟨h.mode, h.pwr, h.hp, h.line, h.cfg, h.port, h.answers, h.drawn⟩

theorem afterWrite (a : Addr) (bytes : List Byte) : OnlyAnswers (n + 1) s (t.afterWrite a bytes) where
  mode := (State.afterWrite_mode a bytes t).trans h.mode
  pwr := (State.afterWrite_pwr a bytes t).trans h.pwr
  hp := (State.afterWrite_hp a bytes t).trans h.hp
  line := (State.afterWrite_line a bytes t).trans h.line
  cfg := (State.afterWrite_cfg a bytes t).trans h.cfg
  port := (State.afterWrite_port a bytes t).trans h.port
  answers := by rw [State.afterWrite_answers, h.answers, List.drop_drop]
  drawn := by rw [State.afterWrite_drawn, h.drawn, Nat.add_assoc]

/-- The next answer is the one that was `n` places away. -/
theorem okAt_zero : t.okAt 0 = s.okAt n := State.okAt_of_drop 0 h.answers h.drawn

/-- The write at `t` is recorded as it would be at any state with the same record. -/
theorem afterWrite_chip {u : State} {ok : Bool} (ho : s.okAt n = ok) (hcfg : u.cfg = s.cfg) (hchip : t.chip = u.chip)
    (a : Addr) (bytes : List Byte) : (t.afterWrite a bytes).chip = (u.recordWrite a bytes ok).chip := by
  rw [State.afterWrite_chip, State.recordWrite_chip, State.recordWrite_chip, h.okAt_zero, ho, h.cfg, hcfg, hchip]

/-- The state after the result of a command that began at `s`. -/
theorem result {r : Result} {evs : List Event} {m : Memory} (hs : s.pc = .idle)
    (htrace : t.trace ++ [.res r] = s.trace ++ evs) (hchip : t.chip = m) :
    (t.emit (.res r)).toIdle = { s.answered n with trace := s.trace ++ evs, chip := m } :=
  State.eq_of_fields h.mode h.pwr h.hp hs.symm h.line h.cfg h.port h.answers h.drawn htrace hchip

end OnlyAnswers

/-! ### The write that ends a command -/

section Ending
variable {i : Instr} {s : State} {p : Pos} {a : Addr} {bytes : List Byte} {k : State → State}
  (hp : s.pc = .running p) (hi : p.command = i) (hc : i.isCommand = true)
  (hl : legalBurst s.cfg a bytes.length = true)
include hp hi hc hl

/-- A write answered `fail` (R221, R224). -/
theorem run_failed_write (ha : actionAt p s = .write a bytes k) (ho : s.okAt 0 = false) :
    execFor i 2 s = .next ((s.afterWrite a bytes).emit (.res (.err .spiWriteError))).toIdle :=
  run_write_fail hp hi hc ha hl ho (run_result rfl rfl hc)

/-- The last write of a command, which returns `v` if it was acknowledged. -/
theorem run_last_write {v : Value} (ha : actionAt p s = .write a bytes (State.finishOk i v)) :
    execFor i 2 s = .next ((s.afterWrite a bytes).emit
      (.res (if s.okAt 0 then .ok v else .err .spiWriteError))).toIdle := by
  cases ho : s.okAt 0 with
  | true => exact run_write_ok hp hi hc ha hl ho (run_result rfl rfl hc)
  | false => exact run_failed_write hp hi hc hl ha ho

end Ending

end Sys2Proof.Machine
end

section
/-! `set_modem_config` (R131): the write at each of its three labels, and the command up to each of them. -/

namespace Sys2Proof.Machine

/-! ### The write at each label -/

section Writes
variable {s : State} {c : Cfg} {i : BitVec 8} {v : Preset} (hc : s.cfg = c) (hv : presetAt c i = some v)
include hc hv

theorem actionAt_modulation : actionAt (.setModemConfig i .modulation) s =
    .write c.aDataModul [v.v0, v.v1, v.v2, v.v3, v.v4] (State.goto (.setModemConfig i .bandwidth)) := by
  simp [actionAt, setModemConfigAct, modemAct, hc, hv]

theorem actionAt_bandwidth : actionAt (.setModemConfig i .bandwidth) s =
    .write c.aRxBw [v.v5, v.v6] (State.goto (.setModemConfig i .packet)) := by
  simp [actionAt, setModemConfigAct, modemAct, hc, hv]

theorem actionAt_packet : actionAt (.setModemConfig i .packet) s =
    .write c.aPacketConfig1 [v.v7] (State.finishOk (.setModemConfig i) .unit) := by
  simp [actionAt, setModemConfigAct, modemAct, hc, hv]

end Writes

/-! ### The state at each label -/

/-- At the first write: the command is accepted. -/
def State.atModulation (i : BitVec 8) (s : State) : State :=
  (s.emit (.cmd (.setModemConfig i))).goto (.setModemConfig i .modulation)

/-- At the second write: the first is answered. -/
def State.atBandwidth (i : BitVec 8) (v : Preset) (s : State) : State :=
  ((s.atModulation i).afterWrite s.cfg.aDataModul [v.v0, v.v1, v.v2, v.v3, v.v4]).goto (.setModemConfig i .bandwidth)

/-- At the third write: the second is answered. -/
def State.atPacket (i : BitVec 8) (v : Preset) (s : State) : State :=
  ((s.atBandwidth i v).afterWrite s.cfg.aRxBw [v.v5, v.v6]).goto (.setModemConfig i .packet)

theorem onlyAnswers_atModulation (i : BitVec 8) (s : State) : OnlyAnswers 0 s (s.atModulation i) :=
  (OnlyAnswers.accepted _ s).goto _

theorem onlyAnswers_atBandwidth (i : BitVec 8) (v : Preset) (s : State) : OnlyAnswers 1 s (s.atBandwidth i v) :=
  ((onlyAnswers_atModulation i s).afterWrite _ _).goto _

theorem onlyAnswers_atPacket (i : BitVec 8) (v : Preset) (s : State) : OnlyAnswers 2 s (s.atPacket i v) :=
  ((onlyAnswers_atBandwidth i v s).afterWrite _ _).goto _

theorem trace_atBandwidth (i : BitVec 8) (v : Preset) (s : State) : (s.atBandwidth i v).trace =
    s.trace ++ [.cmd (.setModemConfig i), .busW s.cfg.aDataModul [v.v0, v.v1, v.v2, v.v3, v.v4] (s.okAt 0)] := by
  simp [State.atBandwidth, State.atModulation]

theorem trace_atPacket (i : BitVec 8) (v : Preset) (s : State) : (s.atPacket i v).trace =
    s.trace ++ [.cmd (.setModemConfig i), .busW s.cfg.aDataModul [v.v0, v.v1, v.v2, v.v3, v.v4] (s.okAt 0),
      .busW s.cfg.aRxBw [v.v5, v.v6] (s.okAt 1)] := by
  simp [State.atPacket, trace_atBandwidth, (onlyAnswers_atBandwidth i v s).okAt_zero]

theorem chip_atBandwidth (i : BitVec 8) (v : Preset) (s : State) : (s.atBandwidth i v).chip =
    (s.recordWrite s.cfg.aDataModul [v.v0, v.v1, v.v2, v.v3, v.v4] (s.okAt 0)).chip :=
  (onlyAnswers_atModulation i s).afterWrite_chip rfl rfl rfl _ _

theorem chip_atPacket (i : BitVec 8) (v : Preset) (s : State) : (s.atPacket i v).chip =
    ((s.recordWrite s.cfg.aDataModul [v.v0, v.v1, v.v2, v.v3, v.v4] (s.okAt 0)).recordWrite
      s.cfg.aRxBw [v.v5, v.v6] (s.okAt 1)).chip :=
  (onlyAnswers_atBandwidth i v s).afterWrite_chip rfl (State.recordWrite_cfg _ _ _ s) (chip_atBandwidth i v s) _ _

/-! ### The command up to each label -/

section Runs
variable {s : State} {i : BitVec 8} {v : Preset} (hs : s.pc = .idle) (hv : presetAt s.cfg i = some v)
include hs hv

theorem run_to_modulation (n : Nat) :
    execFor (.setModemConfig i) (n + 1) s = execFor (.setModemConfig i) n (s.atModulation i) :=
  run_accept (exec_setModemConfig_of_idle hs hv) rfl

theorem run_to_bandwidth (hcfg : s.cfg.valid = true) (h0 : s.okAt 0 = true) (n : Nat) :
    execFor (.setModemConfig i) (n + 2) s = execFor (.setModemConfig i) n (s.atBandwidth i v) := by
  obtain ⟨hmodul, -⟩ := legal_bursts hcfg
  rw [run_to_modulation hs hv]
  exact run_write_ok rfl rfl rfl (actionAt_modulation rfl hv) hmodul h0 rfl

theorem run_to_packet (hcfg : s.cfg.valid = true) (h0 : s.okAt 0 = true) (h1 : s.okAt 1 = true) (n : Nat) :
    execFor (.setModemConfig i) (n + 3) s = execFor (.setModemConfig i) n (s.atPacket i v) := by
  obtain ⟨-, hrxbw, -⟩ := legal_bursts hcfg
  have hat := onlyAnswers_atBandwidth i v s
  rw [run_to_bandwidth hs hv hcfg h0]
  exact run_write_ok rfl rfl rfl (actionAt_bandwidth hat.cfg hv) (by rwa [hat.cfg]) (by rwa [hat.okAt_zero]) rfl

end Runs

/-- Settles O34: the run up to the write that fails, or to the last one, and that write ends the command. -/
theorem setModemConfigRoutesThePresetInThreeWrites : Obligations.SetModemConfigRoutesThePresetInThreeWrites := by
  intro s i hcfg hs
  obtain ⟨hmodul, hrxbw, -⟩ := legal_bursts hcfg
  have hpacket : legalBurst s.cfg s.cfg.aPacketConfig1 1 = true := legal_single hcfg (by simp [Cfg.singleAddresses])
  refine ⟨exec_setModemConfig_outside hs, fun v hv => ⟨fun h0 h1 => ?_, fun h0 h1 => ?_, fun h0 => ?_⟩⟩
  · have hat := onlyAnswers_atPacket i v s
    rw [run_to_packet hs hv hcfg h0 h1,
      run_last_write (i := .setModemConfig i) rfl rfl rfl (by rwa [hat.cfg]) (actionAt_packet hat.cfg hv)]
    refine congrArg _ ((hat.afterWrite _ _).result hs ?_ (hat.afterWrite_chip rfl (by simp) ?_ _ _))
    · simp [trace_atPacket, hat.okAt_zero, h0, h1]
    · simp [chip_atPacket, h0, h1]
  · have hat := onlyAnswers_atBandwidth i v s
    rw [run_to_bandwidth hs hv hcfg h0,
      run_failed_write (i := .setModemConfig i) rfl rfl rfl (by rwa [hat.cfg]) (actionAt_bandwidth hat.cfg hv)
        (by rwa [hat.okAt_zero])]
    refine congrArg _ ((hat.afterWrite _ _).result hs ?_ (hat.afterWrite_chip h1 (by simp) ?_ _ _))
    · simp [trace_atBandwidth, hat.okAt_zero, h0, h1]
    · simp [chip_atBandwidth, h0]
  · have hat := onlyAnswers_atModulation i s
    rw [run_to_modulation hs hv,
      run_failed_write (i := .setModemConfig i) rfl rfl rfl hmodul (actionAt_modulation hat.cfg hv) h0]
    refine congrArg _ ((hat.afterWrite _ _).result hs ?_ (hat.afterWrite_chip h0 rfl rfl _ _))
    simp [State.atModulation, h0]

end Sys2Proof.Machine
end

section
/-! A command of one event (R25): accepted at `Idle`, it returns at once, or after one write. -/

namespace Sys2Proof.Machine

section Accepted
variable {i : Instr} {s : State} {k : State → State} (hs : s.pc = .idle) (hc : i.isCommand = true)
  (he : exec i s = accept i k s)
include hs hc he

/-- A command accepted straight into its result: nothing but `Cmd` and `Res` is observed, nothing else changes. -/
theorem run_accepted_to_result {r : Result} (hk : k (s.emit (.cmd i)) = (s.emit (.cmd i)).goto (.finish i r)) :
    execFor i 2 s = .next { s with trace := s.trace ++ [.cmd i, .res r] } := by
  rw [run_accept he rfl, hk, run_result rfl rfl hc]
  exact congrArg _ (((OnlyAnswers.accepted i s).goto _).result hs (by simp) rfl)

/-- A command that is one write, and returns `v` if it was acknowledged. -/
theorem run_accepted_to_last_write {p : Pos} {a : Addr} {bytes : List Byte} {v : Value} (hp : p.command = i)
    (hk : k (s.emit (.cmd i)) = (s.emit (.cmd i)).goto p) (hl : legalBurst s.cfg a bytes.length = true)
    (ha : actionAt p ((s.emit (.cmd i)).goto p) = .write a bytes (State.finishOk i v)) :
    execFor i 3 s = .next { s.answered 1 with
      trace := s.trace ++ [.cmd i, .busW a bytes (s.okAt 0), .res (if s.okAt 0 then .ok v else .err .spiWriteError)],
      chip := (s.recordWrite a bytes (s.okAt 0)).chip } := by
  have hat : OnlyAnswers 0 s ((s.emit (.cmd i)).goto p) := (OnlyAnswers.accepted i s).goto p
  rw [run_accept he rfl, hk, run_last_write (s := (s.emit (.cmd i)).goto p) rfl hp hc hl ha]
  refine congrArg _ ((hat.afterWrite a bytes).result hs ?_ (hat.afterWrite_chip rfl rfl rfl a bytes))
  simp [hat.okAt_zero]

end Accepted

end Sys2Proof.Machine
end

section
/-! `set_sync_words` (R142): a usable list is one burst behind the configuration byte, any other no bus event. -/

namespace Sys2Proof.Machine

/-- Settles O33: a command of one write for a usable list, and of none for any other; the policy plays no part. -/
theorem setSyncWordsWritesOneBurstOrRejectsTheCount :
    Obligations.SetSyncWordsWritesOneBurstOrRejectsTheCount := by
  intro s policy words hcfg hs
  refine ⟨fun h1 h8 => ?_, fun hbad => ?_⟩
  · obtain ⟨-, -, -, -, hsync, -⟩ := legal_bursts hcfg
    have hgood : badWordCount words = false := by
      rw [Bool.eq_false_iff, Ne, badWordCount_eq_true_iff]
      omega
    exact run_accepted_to_last_write hs rfl (exec_setSyncWords_of_idle hs policy words) rfl
      (enterSetSyncWords_of_usable _ _ h1 h8) (hsync words hgood) rfl
  · exact run_accepted_to_result hs rfl (exec_setSyncWords_of_idle hs policy words)
      (enterSetSyncWords_of_bad _ _ hbad)

end Sys2Proof.Machine
end

section
/-! The sync-configuration byte (R86, R140): two tag bits above two fields of three bits that hold the clamped count
and the clamped tolerance. -/

namespace Sys2Proof.Machine

/-! ### The two fields -/

theorem clamp_mem {lo hi : Int} (h : lo ≤ hi) (v : Int) : lo ≤ clamp v lo hi ∧ clamp v lo hi ≤ hi := by
  unfold clamp
  split_ifs <;> omega

theorem clamp_of_mem {v lo hi : Int} (h : lo ≤ v) (h' : v ≤ hi) : clamp v lo hi = v := by
  rw [clamp, if_neg (by omega), if_neg (by omega)]

/-- Bits 5:3 of the byte: the clamped word count less one. -/
def countField (n : Nat) : BitVec 3 := BitVec.ofInt 3 (clamp n 1 8 - 1)

/-- Bits 2:0 of the byte: the clamped tolerance. -/
def tolField (tol : BitVec 8) : BitVec 3 := BitVec.ofInt 3 (clamp tol.toNat 0 7)

theorem toNat_ofInt_three {v : Int} (h0 : 0 ≤ v) (h7 : v ≤ 7) : ((BitVec.ofInt 3 v).toNat : Int) = v := by
  rw [BitVec.toNat_ofInt]
  omega

theorem ofInt_eight_of_three {v : Int} (h0 : 0 ≤ v) (h7 : v ≤ 7) :
    BitVec.ofInt 8 v = (BitVec.ofInt 3 v).setWidth 8 := by
  have := toNat_ofInt_three h0 h7
  apply BitVec.eq_of_toNat_eq
  rw [BitVec.toNat_setWidth, BitVec.toNat_ofInt]
  omega

theorem countField_toNat (n : Nat) : ((countField n).toNat : Int) + 1 = clamp n 1 8 := by
  have := clamp_mem (by decide : (1 : Int) ≤ 8) n
  rw [countField, toNat_ofInt_three (by omega) (by omega)]
  omega

theorem tolField_toNat (tol : BitVec 8) : ((tolField tol).toNat : Int) = clamp tol.toNat 0 7 := by
  obtain ⟨h0, h7⟩ := clamp_mem (by decide : (0 : Int) ≤ 7) tol.toNat
  exact toNat_ofInt_three h0 h7

/-- Every count field belongs to a word count. -/
theorem countField_succ (x : BitVec 3) : countField (x.toNat + 1) = x := by
  have := countField_toNat (x.toNat + 1)
  rw [clamp_of_mem (by omega) (by omega)] at this
  exact BitVec.eq_of_toNat_eq (by omega)

/-- Every tolerance field belongs to a tolerance. -/
theorem tolField_setWidth (x : BitVec 3) : tolField (x.setWidth 8) = x := by
  have := tolField_toNat (x.setWidth 8)
  have hx : (x.setWidth 8).toNat = x.toNat := BitVec.toNat_setWidth_of_le (by decide)
  rw [hx, clamp_of_mem (by omega) (by omega)] at this
  exact BitVec.eq_of_toNat_eq (by omega)

/-! ### The byte they make up -/

/-- The byte with tag bits `top` in 7:6, `count` in 5:3 and `tol` in 2:0. -/
def syncLayout (top : BitVec 2) (count tol : BitVec 3) : Byte := top ++ (count ++ tol)

theorem syncLayout_eq_or (top : BitVec 2) (count tol : BitVec 3) :
    syncLayout top count tol = top.setWidth 8 <<< 6 ||| count.setWidth 8 <<< 3 ||| tol.setWidth 8 := by
  have h : syncLayout top count tol = (top ++ (count ++ tol)).setWidth 8 := (BitVec.setWidth_eq _).symm
  rw [h, BitVec.setWidth_append_eq_shiftLeft_setWidth_or, BitVec.setWidth_append_eq_shiftLeft_setWidth_or,
    BitVec.or_assoc]

theorem syncLayout_toNat (top : BitVec 2) (count tol : BitVec 3) :
    (syncLayout top count tol).toNat = top.toNat * 64 + count.toNat * 8 + tol.toNat := by
  have hlow : (count ++ tol).toNat = count.toNat * 8 + tol.toNat := by
    rw [BitVec.toNat_append, ← Nat.shiftLeft_add_eq_or_of_lt tol.isLt, Nat.shiftLeft_eq]
  rw [syncLayout, BitVec.toNat_append, ← Nat.shiftLeft_add_eq_or_of_lt (count ++ tol).isLt, Nat.shiftLeft_eq, hlow,
    Nat.add_assoc]

theorem syncLayout_low (top : BitVec 2) (count tol : BitVec 3) :
    (syncLayout top count tol).extractLsb' 0 6 = count ++ tol :=
  BitVec.extractLsb'_append_eq_right

theorem syncLayout_count (top : BitVec 2) (count tol : BitVec 3) :
    (syncLayout top count tol).extractLsb' 3 3 = count :=
  (BitVec.extractLsb'_append_eq_of_add_le (by decide)).trans BitVec.extractLsb'_append_eq_left

theorem syncLayout_tol (top : BitVec 2) (count tol : BitVec 3) :
    (syncLayout top count tol).extractLsb' 0 3 = tol :=
  (BitVec.extractLsb'_append_eq_of_add_le (by decide)).trans BitVec.extractLsb'_append_eq_right

theorem syncLayout_tag (top : BitVec 2) (count tol : BitVec 3) (j : Nat) :
    (syncLayout top count tol).getLsbD (6 + j) = top.getLsbD j := by
  rw [syncLayout, BitVec.getLsbD_append, if_neg (by omega), Nat.add_sub_cancel_left]

/-- The or of R140 is the layout of R86: the fields do not overlap. -/
theorem syncFields_eq_layout (top : BitVec 2) (tol : BitVec 8) (n : Nat) :
    syncFields (top.setWidth 8 <<< 6) tol n = syncLayout top (countField n) (tolField tol) := by
  have hn := clamp_mem (by decide : (1 : Int) ≤ 8) n
  have ht := clamp_mem (by decide : (0 : Int) ≤ 7) tol.toNat
  rw [syncLayout_eq_or, syncFields, ofInt_eight_of_three (v := clamp n 1 8 - 1) (by omega) (by omega),
    ofInt_eight_of_three ht.1 ht.2, countField, tolField]

/-! ### The layout of a count and a tolerance -/

section Fields
variable (top : BitVec 2) (tol : BitVec 8) (n : Nat)

theorem syncLayout_fields_toNat : ((syncLayout top (countField n) (tolField tol)).toNat : Int) =
    top.toNat * 64 + (clamp n 1 8 - 1) * 8 + clamp tol.toNat 0 7 := by
  have := countField_toNat n
  have := tolField_toNat tol
  rw [syncLayout_toNat]
  omega

theorem syncLayout_fields_read :
    (((syncLayout top (countField n) (tolField tol)).extractLsb' 3 3).toNat : Int) + 1 = clamp n 1 8 ∧
    (((syncLayout top (countField n) (tolField tol)).extractLsb' 0 3).toNat : Int) = clamp tol.toNat 0 7 := by
  rw [syncLayout_count, syncLayout_tol]
  exact ⟨countField_toNat n, tolField_toNat tol⟩

end Fields

/-- The tolerance and the count whose fields are bits 2:0 and 5:3 of `x` give `x`. -/
theorem syncLayout_fields_low (top : BitVec 2) (x : BitVec 6) :
    (syncLayout top (countField ((x.extractLsb' 3 3).toNat + 1))
      (tolField ((x.extractLsb' 0 3).setWidth 8))).extractLsb' 0 6 = x := by
  rw [syncLayout_low, countField_succ, tolField_setWidth]
  exact BitVec.extractLsb'_append_extractLsb'

/-! ### The byte of each policy -/

theorem syncByte_autoFill (tol : BitVec 8) (n : Nat) :
    syncByte (.autoFill tol) n = syncLayout 2#2 (countField n) (tolField tol) :=
  syncFields_eq_layout 2#2 tol n

theorem syncByte_manualFill (tol : BitVec 8) (n : Nat) :
    syncByte (.manualFill tol) n = syncLayout 3#2 (countField n) (tolField tol) :=
  syncFields_eq_layout 3#2 tol n

/-- Bits 7 and 6 under `AutoFill`. -/
theorem syncByte_autoFill_tag (tol : BitVec 8) (n : Nat) :
    (syncByte (.autoFill tol) n).getLsbD 7 = true ∧ (syncByte (.autoFill tol) n).getLsbD 6 = false := by
  rw [syncByte_autoFill]
  exact ⟨syncLayout_tag 2#2 _ _ 1, syncLayout_tag 2#2 _ _ 0⟩

/-- Bits 7 and 6 under `ManualFill`. -/
theorem syncByte_manualFill_tag (tol : BitVec 8) (n : Nat) :
    (syncByte (.manualFill tol) n).getLsbD 7 = true ∧ (syncByte (.manualFill tol) n).getLsbD 6 = true := by
  rw [syncByte_manualFill]
  exact ⟨syncLayout_tag 3#2 _ _ 1, syncLayout_tag 3#2 _ _ 0⟩

theorem syncByte_autoFill_ne_manualFill (tol : BitVec 8) (n : Nat) :
    syncByte (.autoFill tol) n ≠ syncByte (.manualFill tol) n := fun h =>
  ne_true_of_eq_false (syncByte_autoFill_tag tol n).2 (h ▸ (syncByte_manualFill_tag tol n).2)

/-- The byte is 0x00, or bit 7 is set in it. -/
theorem syncByte_zero_or_ge (policy : SyncPolicy) (n : Nat) :
    syncByte policy n = 0x00#8 ∨ 0x80 ≤ (syncByte policy n).toNat := by
  cases policy with
  | off => exact .inl rfl
  | autoFill tol => exact .inr (Nat.ge_two_pow_of_testBit (syncByte_autoFill_tag tol n).1)
  | manualFill tol => exact .inr (Nat.ge_two_pow_of_testBit (syncByte_manualFill_tag tol n).1)

/-- Settles O27: the byte is the layout of R86 with the tag 2 or 3, and every clause reads one of its fields. -/
theorem syncConfigurationByteCarriesItsFields : Obligations.SyncConfigurationByteCarriesItsFields := by
  refine ⟨fun n => rfl, fun tol n => ⟨?_, ?_⟩, syncByte_zero_or_ge, ?fields, ?onto⟩
  · rw [syncByte_autoFill, syncLayout_fields_toNat]; rfl
  · rw [syncByte_manualFill, syncLayout_fields_toNat]; rfl
  case fields =>
    rintro tol n b (rfl | rfl)
    · obtain ⟨h7, h6⟩ := syncByte_autoFill_tag tol n
      exact ⟨h7, iff_of_false (ne_true_of_eq_false h6) (syncByte_autoFill_ne_manualFill tol n),
        syncByte_autoFill tol n ▸ syncLayout_fields_read 2#2 tol n⟩
    · obtain ⟨h7, h6⟩ := syncByte_manualFill_tag tol n
      exact ⟨h7, iff_of_true h6 rfl, syncByte_manualFill tol n ▸ syncLayout_fields_read 3#2 tol n⟩
  case onto =>
    intro x
    refine ⟨(x.extractLsb' 0 3).setWidth 8, (x.extractLsb' 3 3).toNat + 1, ?_, ?_⟩
    · rw [syncByte_autoFill, syncLayout_fields_low]
    · rw [syncByte_manualFill, syncLayout_fields_low]

end Sys2Proof.Machine
end

section
/-! `set_tx_power` (R151): the request is cached as the command is accepted, and one write carries the PA byte. -/

namespace Sys2Proof.Machine

/-- Two states that execute an instruction alike run alike from there. -/
theorem execFor_succ_congr {i : Instr} {s t : State} (h : exec i s = exec i t) (n : Nat) :
    execFor i (n + 1) s = execFor i (n + 1) t := by
  simp only [execFor, h]

/-- Caching the power beforehand makes no difference to `set_tx_power`. -/
theorem exec_setTxPower_cachePower {s : State} (hs : s.pc = .idle) (power : BitVec 8) :
    exec (.setTxPower power) s = exec (.setTxPower power) (s.cachePower power) := by
  rw [exec_setTxPower_of_idle hs, exec_setTxPower_of_idle (s := s.cachePower power) hs]
  rfl

/-- The record of a write does not depend on the cached power. -/
theorem recordWrite_cachePower_chip (power : BitVec 8) (a : Addr) (bytes : List Byte) (ok : Bool) (s : State) :
    ((s.cachePower power).recordWrite a bytes ok).chip = (s.recordWrite a bytes ok).chip := by
  rw [State.recordWrite_chip, State.recordWrite_chip]
  rfl

/-- `set_tx_power` of the power already cached is one write and changes no register of the block. -/
theorem run_setTxPower_of_cached {s : State} (hcfg : s.cfg.valid = true) (hs : s.pc = .idle) :
    execFor (.setTxPower s.pwr) 3 s = .next { s.answered 1 with
      trace := s.trace ++ [.cmd (.setTxPower s.pwr), .busW s.cfg.aPaLevel [paByte s.cfg (dbm s.pwr) s.hp] (s.okAt 0),
        .res (if s.okAt 0 then .ok .unit else .err .spiWriteError)],
      chip := (s.recordWrite s.cfg.aPaLevel [paByte s.cfg (dbm s.pwr) s.hp] (s.okAt 0)).chip } :=
  run_accepted_to_last_write (p := .setTxPower s.pwr) hs rfl (exec_setTxPower_of_idle hs s.pwr) rfl rfl
    (legal_single hcfg (by simp [Cfg.singleAddresses])) rfl

/-- Settles O32: the power is cached as the command is accepted, and from there nothing but the one write happens,
however it is answered. -/
theorem setTxPowerCachesVerbatimAndWritesThePaByte : Obligations.SetTxPowerCachesVerbatimAndWritesThePaByte := by
  intro s power hcfg hs
  rw [execFor_succ_congr (exec_setTxPower_cachePower hs power), ← recordWrite_cachePower_chip power]
  exact run_setTxPower_of_cached (s := s.cachePower power) hcfg hs

end Sys2Proof.Machine
end

section
/-! The PA control byte (R85, R150): enable bits in 7:5 above an offset in 4:0 that is never cut off (R152). -/

namespace Sys2Proof.Machine

/-! ### The two fields -/

/-- Item 5 of R9. -/
theorem paBits_of_valid {c : Cfg} (h : c.valid = true) :
    (c.pa0On = 0x80#8 ∧ c.pa2On = 0x20#8) ∨ (c.pa0On = 0x20#8 ∧ c.pa2On = 0x80#8) := by
  obtain ⟨-, -, -, -, hpa, -⟩ := valid_items h
  simpa [Cfg.paBitsPlaced] using hpa

/-- The bit of PA0 lies above the offset. -/
theorem pa0On_low {c : Cfg} (h : c.valid = true) : c.pa0On.toNat % 32 = 0 := by
  obtain ⟨h0, -⟩ | ⟨h0, -⟩ := paBits_of_valid h <;> rw [h0] <;> rfl

/-- The bits of PA1 and PA2 are different ones, and both lie above the offset. -/
theorem pa1On_or_pa2On {c : Cfg} (h : c.valid = true) :
    (pa1On ||| c.pa2On).toNat = 0x40 + c.pa2On.toNat ∧ (pa1On ||| c.pa2On).toNat % 32 = 0 := by
  obtain ⟨-, h2⟩ | ⟨-, h2⟩ := paBits_of_valid h <;> rw [h2] <;> decide

/-- R152: the mask never changes a sum `p + k` from 0 to 31. -/
theorem paOffset_toNat {p k : Int} (h0 : 0 ≤ p + k) (h31 : p + k ≤ 31) : ((paOffset p k).toNat : Int) = p + k := by
  have hmask : (paOffset p k).toNat = (BitVec.ofInt 8 (p + k)).toNat % 2 ^ 5 := by
    rw [paOffset, BitVec.toNat_and]
    exact Nat.and_two_pow_sub_one_eq_mod _ 5
  rw [hmask, BitVec.toNat_ofInt]
  omega

/-- Enable bits above the offset and an offset in range add up. -/
theorem enable_or_paOffset_toNat {enable : Byte} (he : enable.toNat % 32 = 0) {p k : Int} (h0 : 0 ≤ p + k)
    (h31 : p + k ≤ 31) : ((enable ||| paOffset p k).toNat : Int) = enable.toNat + (p + k) := by
  have hoff := paOffset_toNat h0 h31
  have hlt : (paOffset p k).toNat < 2 ^ 5 := by omega
  have hhigh : enable.toNat = 2 ^ 5 * (enable.toNat / 32) := by omega
  rw [BitVec.toNat_or, hhigh, ← Nat.two_pow_add_eq_or_of_lt hlt, ← hhigh]
  omega

/-! ### The byte of each branch -/

section Branches
variable (cfg : Cfg) {power : Int}

theorem paByte_boosted_low (h : clamp power (-2) 20 ≤ 13) :
    paByte cfg power true = pa1On ||| paOffset (clamp power (-2) 20) 18 := by
  simp [paByte, h]

theorem paByte_boosted_middle (h14 : 14 ≤ clamp power (-2) 20) (h17 : clamp power (-2) 20 ≤ 17) :
    paByte cfg power true = pa1On ||| cfg.pa2On ||| paOffset (clamp power (-2) 20) 14 := by
  simp [paByte, show ¬clamp power (-2) 20 ≤ 13 by omega, show ¬18 ≤ clamp power (-2) 20 by omega]

theorem paByte_boosted_high (h : 18 ≤ clamp power (-2) 20) :
    paByte cfg power true = pa1On ||| cfg.pa2On ||| paOffset (clamp power (-2) 20) 11 := by
  simp [paByte, show ¬clamp power (-2) 20 ≤ 13 by omega, h]

theorem paByte_normal : paByte cfg power false = cfg.pa0On ||| paOffset (clamp power (-18) 13) 18 := rfl

end Branches

/-- Settles O26: in each branch the clamped power plus its offset fits below the enable bits. -/
theorem paControlByteIsEnableBitsPlusOffset : Obligations.PaControlByteIsEnableBitsPlusOffset := by
  intro cfg power hcfg
  obtain ⟨hlo, hhi⟩ := clamp_mem (by decide : (-2 : Int) ≤ 20) power
  obtain ⟨hlo', hhi'⟩ := clamp_mem (by decide : (-18 : Int) ≤ 13) power
  obtain ⟨hsum, hlow⟩ := pa1On_or_pa2On hcfg
  refine ⟨fun h => ?_, fun h14 h17 => ?_, fun h => ?_, ?_⟩
  · rw [paByte_boosted_low cfg h, enable_or_paOffset_toNat (by decide) (by omega) (by omega)]
    rfl
  · rw [paByte_boosted_middle cfg h14 h17, enable_or_paOffset_toNat hlow (by omega) (by omega), hsum]
    omega
  · rw [paByte_boosted_high cfg h, enable_or_paOffset_toNat hlow (by omega) (by omega), hsum]
    omega
  · rw [paByte_normal, enable_or_paOffset_toNat (pa0On_low hcfg) (by omega) (by omega)]

end Sys2Proof.Machine
end

section
/-! The synthesizer word (R160, R162): the truncated quotient, cut into bytes (R88) where it fits 24 bits. -/

namespace Sys2Proof.Machine

/-! ### The word and its bytes -/

theorem extractLsb'_ofNat_of_le {w k m : Nat} (h : k + m ≤ w) (n : Nat) :
    (BitVec.ofNat w n).extractLsb' k m = BitVec.ofNat m (n / 2 ^ k) := by
  apply BitVec.eq_of_getLsbD_eq
  intro j hj
  have hw : k + j < w := by omega
  rw [BitVec.getLsbD_extractLsb', BitVec.getLsbD_ofNat, BitVec.getLsbD_ofNat, Nat.testBit_div_two_pow]
  simp [hj, hw, Nat.add_comm]

theorem splitWord_ofNat (n : Nat) : splitWord (BitVec.ofNat 24 n) =
    [BitVec.ofNat 8 (n / 65536), BitVec.ofNat 8 (n / 256), BitVec.ofNat 8 n] := by
  simp [splitWord, extractLsb'_ofNat_of_le]

theorem frfBytes_of_word {c : Cfg} {f : BitVec 16} {n : Nat} (hf : frfWord c f = n) (hn : n < 2 ^ 24) :
    frfBytes c f = some [BitVec.ofNat 8 (n / 65536), BitVec.ofNat 8 (n / 256), BitVec.ofNat 8 n] := by
  subst hf
  rw [frfBytes_of_lt hn, splitWord_ofNat]

/-- R162 d: the bytes read as one number are the word again. -/
theorem three_bytes_toNat {n : Nat} (hn : n < 2 ^ 24) :
    (BitVec.ofNat 8 (n / 65536)).toNat * 65536 + (BitVec.ofNat 8 (n / 256)).toNat * 256 +
      (BitVec.ofNat 8 n).toNat = n := by
  simp only [BitVec.toNat_ofNat]
  omega

/-! ### The word of particular operands -/

/-- R162 a. -/
theorem frfWord_mono (c : Cfg) {f g : BitVec 16} (h : f.toNat ≤ g.toNat) : frfWord c f ≤ frfWord c g :=
  Nat.div_le_div_right (Nat.mul_le_mul_right _ h)

/-- Item 7 of R9, the document's vector. -/
theorem frfWord_915_of_valid {c : Cfg} (h : c.valid = true) : frfWord c 915 = 0xE4C000 := by
  obtain ⟨-, -, -, -, -, -, hsynth, -⟩ := valid_items h
  simp only [Cfg.synthesizerConstants, Bool.and_eq_true, beq_iff_eq] at hsynth
  exact hsynth.2

theorem frfWord_zero (c : Cfg) : frfWord c 0 = 0 := by
  simp [frfWord]

/-- R160: the default constants leave no remainder. -/
theorem frfWord_default {c : Cfg} (hs : c.fStepNumerator = 524288) (ho : c.fOscDenominator = 32) (f : BitVec 16) :
    frfWord c f = f.toNat * 16384 := by
  rw [frfWord, hs, ho]
  omega

/-- Settles O28: the word that fits is read back from its bytes, and the vectors are words that fit. -/
theorem synthesizerBytesAreTheTruncatedQuotient : Obligations.SynthesizerBytesAreTheTruncatedQuotient := by
  refine ⟨fun _ f hfit => ?quotient, fun _ _ hbig => frfBytes_of_ge hbig, fun cfg _ _ h => frfWord_mono cfg h,
    fun _ hv => frfBytes_of_word (frfWord_915_of_valid hv) (by decide),
    fun cfg => frfBytes_of_word (frfWord_zero cfg) (by decide), fun _ f hs ho => ?default⟩
  case quotient => exact ⟨_, _, _, frfBytes_of_word rfl hfit, three_bytes_toNat hfit⟩
  case default =>
    have hword := frfWord_default hs ho f
    exact ⟨hword, by omega⟩

/-! ### The command -/

theorem actionAt_setFrequency {s : State} {f : BitVec 16} {bytes : List Byte} (h : frfBytes s.cfg f = some bytes) :
    actionAt (.setFrequency f) s = .write s.cfg.aFrf bytes (State.finishOk (.setFrequency f) .unit) := by
  simp only [actionAt, setFrequencyAct, frequencyAct, h]

/-- Settles O31: a command of one write where the word fits, and refused at the port where it does not. -/
theorem setFrequencyWritesTheWordInOneBurst : Obligations.SetFrequencyWritesTheWordInOneBurst := by
  intro s f hcfg hs
  refine ⟨fun hfit => ?_, exec_setFrequency_too_large hs⟩
  obtain ⟨-, -, hfrf, -⟩ := legal_bursts hcfg
  exact run_accepted_to_last_write hs rfl (exec_setFrequency_of_idle hs hfit) rfl rfl hfrf
    (actionAt_setFrequency (frfBytes_of_word rfl hfit))

end Sys2Proof.Machine
end

section
/-! The invariant (R177), where it is kept: what `posOk` says of a position speaks of the mode, the power, the line and
the configuration alone, so it survives every event that keeps these; what each body goes on to is shown once. -/

namespace Sys2Proof.Machine

/-! ### What `posOk` speaks of -/

/-- The fields that `posOk` looks at are the same in `u` as in `s`. -/
structure SameRegs (s u : State) : Prop where
  mode : u.mode = s.mode
  pwr : u.pwr = s.pwr
  line : u.line = s.line
  cfg : u.cfg = s.cfg

theorem sameRegs_emit (e : Event) (s : State) : SameRegs s (s.emit e) := ⟨rfl, rfl, rfl, rfl⟩

theorem sameRegs_afterWrite (a : Addr) (bytes : List Byte) (s : State) : SameRegs s (s.afterWrite a bytes) := by
  constructor <;> simp

theorem sameRegs_afterRead (a : Addr) (n : Nat) (s : State) : SameRegs s (s.afterRead a n) := ⟨rfl, rfl, rfl, rfl⟩

theorem sameRegs_afterHigh {s : State} (h : s.okAt 0 = true) : SameRegs { s with line := .high } s.afterHigh := by
  constructor <;> simp [h]

theorem sameRegs_afterLow {s : State} (h : s.okAt 0 = true) : SameRegs { s with line := .low } s.afterLow := by
  constructor <;> simp [h]

theorem valueAllowed_congr {s u : State} (h : SameRegs s u) (c : Instr) (v : Value) :
    valueAllowed u c v = valueAllowed s c v := by
  unfold valueAllowed
  simp only [h.mode, h.pwr, h.line, h.cfg]

theorem setModePosOk_congr {s u : State} (h : SameRegs s u) (target : Mode) (p : SetModePos) :
    setModePosOk u target p = setModePosOk s target p := by
  unfold setModePosOk
  simp only [h.mode, h.pwr]

theorem posOk_congr {s u : State} (h : SameRegs s u) (p : Pos) : posOk u p = posOk s p := by
  unfold posOk initPosOk resetPosOk sendPosOk receivePosOk resultAllowed
  simp only [valueAllowed_congr h, setModePosOk_congr h, h.mode, h.pwr, h.line, h.cfg]

/-! ### Where the sequencer goes -/

/-- The position is one that its command has passed the checks of. -/
def State.PcOk (t : State) : Prop := pcOk t t.pc

theorem pcOk_goto {s u : State} {p : Pos} (hu : SameRegs s u) (h : posOk s p) : (u.goto p).PcOk := by
  have hgoto : SameRegs s (u.goto p) := ⟨hu.mode, hu.pwr, hu.line, hu.cfg⟩
  exact (posOk_congr hgoto p).mpr h

theorem pcOk_raise {c : Instr} {e : ErrKind} (hc : c.isCommand = true) (he : e ∈ errKinds c) (u : State) :
    (u.raise c e).PcOk :=
  ⟨hc, he⟩

theorem pcOk_finishOk {c : Instr} {v : Value} {u : State} (hc : c.isCommand = true) (h : valueAllowed u c v) :
    (u.finishOk c v).PcOk :=
  pcOk_goto ⟨rfl, rfl, rfl, rfl⟩ ⟨hc, h⟩

theorem pcOk_enterSetMode {s u : State} {target : Mode} {wrap : SetModePos → Pos} {k : State → State}
    (hu : SameRegs s u) (hwrap : ∀ q, setModePosOk s target q → posOk s (wrap q))
    (hk : s.mode = target → (k u).PcOk) : (enterSetMode target wrap k u).PcOk := by
  obtain ⟨hm, e⟩ | ⟨hm, ht, hp, e⟩ | ⟨hm, -, e⟩ := enterSetMode_cases target wrap k u <;> rw [e]
  · exact hk (hu.mode.symm.trans hm)
  · exact pcOk_goto hu (hwrap .testPa1 (setModePosOk_congr hu target .testPa1 ▸ ⟨hm, ht, hp⟩))
  · exact pcOk_goto hu (hwrap .readMode (setModePosOk_congr hu target .readMode ▸ hm))

/-- An action of command `c` at `s` that goes on to a position past its checks, or to an error `c` may end with. -/
def Action.Sound (c : Instr) (s : State) : Action → Prop
  | .write _ _ k => .spiWriteError ∈ errKinds c ∧ ∀ u, SameRegs s u → (k u).PcOk
  | .read _ n k => .spiReadError ∈ errKinds c ∧ ∀ bytes u, bytes.length = n → SameRegs s u → (k bytes u).PcOk
  | .lineHigh k => .resetError ∈ errKinds c ∧ ∀ u, SameRegs { s with line := .high } u → (k u).PcOk
  | .lineLow k => .resetError ∈ errKinds c ∧ ∀ u, SameRegs { s with line := .low } u → (k u).PcOk
  | .delay _ k => ∀ u, SameRegs s u → (k u).PcOk
  | .result _ => True
  | .fault _ => True
  | .refuse _ => True

theorem perform_pcOk {c : Instr} {a : Action} {s t : State} (hc : c.isCommand = true) (ha : a.Sound c s)
    (h : perform c a s = .next t) : t.PcOk := by
  cases a with
  | write addr bytes k =>
    obtain ⟨-, ⟨-, rfl⟩ | ⟨-, rfl⟩⟩ := memWrite_next h
    · exact ha.2 _ (sameRegs_afterWrite addr bytes s)
    · exact pcOk_raise hc ha.1 _
  | read addr n k =>
    obtain ⟨-, ⟨bytes, hd, rfl⟩ | ⟨-, rfl⟩⟩ := memRead_next h
    · exact ha.2 bytes _ (State.dataAt_length hd) (sameRegs_afterRead addr n s)
    · exact pcOk_raise hc ha.1 _
  | lineHigh k =>
    obtain ⟨ho, rfl⟩ | ⟨-, rfl⟩ := lineHigh_next h
    · exact ha.2 _ (sameRegs_afterHigh ho)
    · exact pcOk_raise hc ha.1 _
  | lineLow k =>
    obtain ⟨ho, rfl⟩ | ⟨-, rfl⟩ := lineLow_next h
    · exact ha.2 _ (sameRegs_afterLow ho)
    · exact pcOk_raise hc ha.1 _
  | delay d k =>
    obtain rfl := delayFor_next h
    exact ha _ (sameRegs_emit _ s)
  | result r =>
    obtain rfl := respond_next h
    trivial
  | fault f => cases h
  | refuse r => cases h

/-! ### The bodies that a `call` runs in line -/

section Bodies
variable {c : Instr} {s : State}

theorem waitAct_sound {addr : Addr} {mask : Byte} {want : Bool} {wrap : WaitPos → Pos} {k : State → State}
    (he : .spiReadError ∈ errKinds c) (hwrap : ∀ w, posOk s (wrap w)) (hk : ∀ u, SameRegs s u → (k u).PcOk)
    (w : WaitPos) : (waitAct addr mask want wrap k w s).Sound c s := by
  cases w with
  | poll =>
    refine ⟨he, fun bytes u _ hu => ?_⟩
    dsimp only
    split
    · exact hk u hu
    · exact pcOk_goto hu (hwrap _)
  | sleep => exact fun u hu => pcOk_goto hu (hwrap _)

theorem resetAct_sound {wrap : ResetPos → Pos} {k : State → State} {p : ResetPos} (he : .resetError ∈ errKinds c)
    (hwrap : ∀ u q, resetPosOk u q → posOk u (wrap q)) (hk : ∀ u, u.line = .low → (k u).PcOk)
    (hp : resetPosOk s p) : (resetAct wrap k p).Sound c s := by
  cases p with
  | high => exact ⟨he, fun u hu => pcOk_goto hu (hwrap _ .hold rfl)⟩
  | hold => exact fun u hu => pcOk_goto hu (hwrap s .low hp)
  | low => exact ⟨he, fun u hu => pcOk_goto hu (hwrap _ .settle rfl)⟩
  | settle => exact fun u hu => hk u (hu.line.trans hp)

theorem setModeAct_sound {target : Mode} {wrap : SetModePos → Pos} {k : State → State} {p : SetModePos}
    (hw : .spiWriteError ∈ errKinds c) (hr : .spiReadError ∈ errKinds c)
    (hwrap : ∀ q, setModePosOk s target q → posOk s (wrap q))
    (hk : ∀ u, SameRegs s u → (k (u.cacheMode target)).PcOk) (hp : setModePosOk s target p) :
    (setModeAct target wrap k p s).Sound c s := by
  cases p with
  | testPa1 => exact ⟨hw, fun u hu => pcOk_goto hu (hwrap .testPa2 hp)⟩
  | testPa2 => exact ⟨hw, fun u hu => pcOk_goto hu (hwrap .readMode hp.1)⟩
  | readMode => exact ⟨hr, fun bytes u _ hu => pcOk_goto hu (hwrap (.writeMode _) hp)⟩
  | writeMode old => exact ⟨hw, fun u hu => pcOk_goto hu (hwrap (.ready .poll) hp)⟩
  | ready w => exact waitAct_sound hr (fun w => hwrap (.ready w) hp) hk w

theorem modemAct_sound {i : BitVec 8} {wrap : ModemPos → Pos} {k : State → State} (he : .spiWriteError ∈ errKinds c)
    (hwrap : ∀ q, posOk s (wrap q)) (hk : ∀ u, SameRegs s u → (k u).PcOk) (p : ModemPos) :
    (modemAct i wrap k p s).Sound c s := by
  unfold modemAct
  split
  · trivial
  · cases p with
    | packet => exact ⟨he, hk⟩
    | _ => exact ⟨he, fun u hu => pcOk_goto hu (hwrap _)⟩

theorem frequencyAct_sound {f : BitVec 16} {k : State → State} (he : .spiWriteError ∈ errKinds c)
    (hk : ∀ u, SameRegs s u → (k u).PcOk) : (frequencyAct f k s).Sound c s := by
  unfold frequencyAct
  split
  · trivial
  · exact ⟨he, hk⟩

end Bodies

end Sys2Proof.Machine
end

section
/-! The invariant (R177, R221, R96), kept by every step: from a position past its checks each command goes on to such a
position, and a command accepted at `Idle` stands at one. -/

namespace Sys2Proof.Machine

/-! ### Each command -/

theorem pcOk_enterSetSyncWords {s u : State} {c : Instr} {words : List Byte} {first : Pos} (hu : SameRegs s u)
    (hbad : badWordCount words = true → c.isCommand = true ∧ .configurationError ∈ errKinds c)
    (hgood : badWordCount words = false → posOk s first) : (enterSetSyncWords c words first u).PcOk := by
  unfold enterSetSyncWords
  split
  · next h => exact pcOk_raise (hbad h).1 (hbad h).2 u
  · next h => exact pcOk_goto hu (hgood (Bool.eq_false_iff.mpr h))

/-- Inside `init` the line is low past the pulse, and from step 10 on the power is 13; the list of sync words is
usable by R9, so step 4 raises nothing. -/
theorem initAct_sound {s : State} {p : InitPos} (hv : s.cfg.valid = true) (hp : initPosOk s p) :
    (initAct p s).Sound .init s := by
  have hw : .spiWriteError ∈ errKinds .init := by decide
  have hr : .spiReadError ∈ errKinds .init := by decide
  cases p with
  | pulse q =>
    dsimp only [initAct]
    exact resetAct_sound (by decide) (fun _ _ => id) (fun u hu => pcOk_goto ⟨rfl, rfl, rfl, rfl⟩ hu) hp
  | version =>
    refine ⟨hr, fun bytes u _ hu => ?_⟩
    dsimp only
    split
    · exact pcOk_goto hu hp
    · exact pcOk_raise rfl hr u
  | lna =>
    have hgood := initSyncWords_of_valid hv
    exact ⟨hw, fun u hu => pcOk_enterSetSyncWords hu (fun hbad => absurd (hbad.symm.trans hgood) (by decide))
      fun _ => hp⟩
  | modem q =>
    have hmodem (q : ModemPos) : posOk s (.init (.modem q)) := hp
    exact modemAct_sound hw hmodem (fun u hu => pcOk_goto (p := .init .preamble) hu hp) q
  | preamble =>
    exact ⟨hw, fun u hu => pcOk_goto (s := u.cachePower 13) ⟨rfl, rfl, rfl, rfl⟩ ⟨hu.line.trans hp, rfl⟩⟩
  | frequency =>
    obtain ⟨hline, hpwr⟩ := hp
    exact frequencyAct_sound hw fun u hu => pcOk_enterSetMode hu (fun q hq => ⟨hline, hpwr, hq⟩) fun hm =>
      pcOk_finishOk rfl ⟨hu.mode.trans hm, hu.pwr.trans hpwr⟩
  | toStandby q =>
    obtain ⟨hline, hpwr, hq⟩ := hp
    dsimp only [initAct]
    exact setModeAct_sound hw hr (fun q hq => ⟨hline, hpwr, hq⟩)
      (fun u hu => pcOk_finishOk rfl ⟨rfl, hu.pwr.trans hpwr⟩) hq
  | _ => exact ⟨hw, fun u hu => pcOk_goto hu hp⟩

theorem sendAct_sound {s : State} {payload : List Byte} {p : SendPos} (hl : payload.length ≤ maxPayload)
    (hp : sendPosOk s p) : (sendAct payload p s).Sound (.send payload) s := by
  have hw : .spiWriteError ∈ errKinds (.send payload) := by simp [errKinds]
  have hr : .spiReadError ∈ errKinds (.send payload) := by simp [errKinds]
  have hsent (u : State) (hm : u.mode = .transmit) : (u.goto (.send payload (.sent .poll))).PcOk :=
    pcOk_goto ⟨rfl, rfl, rfl, rfl⟩ ⟨hl, hm⟩
  cases p with
  | fifo =>
    exact ⟨hw, fun u hu => pcOk_enterSetMode hu (fun q hq => ⟨hl, hq⟩) fun hm => hsent u (hu.mode.trans hm)⟩
  | toTransmit q =>
    dsimp only [sendAct]
    exact setModeAct_sound hw hr (fun q hq => ⟨hl, hq⟩) (fun u _ => hsent _ rfl) hp
  | sent w =>
    have hwait (w : WaitPos) : posOk s (.send payload (.sent w)) := ⟨hl, hp⟩
    refine waitAct_sound hr hwait (fun u hu => ?_) w
    exact pcOk_enterSetMode hu (fun q hq => ⟨hl, hp, hq⟩) fun hm => absurd (hp.symm.trans hm) (by decide)
  | toStandby q =>
    obtain ⟨hm, hq⟩ := hp
    dsimp only [sendAct]
    exact setModeAct_sound hw hr (fun q hq => ⟨hl, hm, hq⟩) (fun u _ => pcOk_finishOk rfl ⟨rfl, hl⟩) hq

theorem pcOk_receiveLength {s u : State} (hu : SameRegs s u) (capacity : Nat) (len : Byte) :
    (receiveLength capacity len u).PcOk := by
  unfold receiveLength
  split
  · exact pcOk_raise rfl (by simp [errKinds]) u
  · split
    · exact pcOk_goto hu trivial
    · exact pcOk_goto hu ⟨by omega, by omega⟩

theorem pcOk_receivePayload {s u : State} {capacity : Nat} {len : Byte} (hu : SameRegs s u)
    (h4 : 4 ≤ len.toNat) (hcap : len.toNat ≤ capacity) : (receivePayload capacity len u).PcOk := by
  unfold receivePayload
  split
  · exact pcOk_finishOk rfl ⟨h4.trans hcap, by decide⟩
  · next h =>
    have hissued (h0 : payloadCount len = 0) : s.cfg.zeroLenBurstIssued = true := by
      rw [hu.cfg] at h
      simpa [h0] using h
    exact pcOk_goto hu ⟨h4, hcap, hissued⟩

theorem receiveAct_sound {s : State} {capacity : Nat} {p : ReceivePos} (hp : receivePosOk s capacity p) :
    (receiveAct capacity p s).Sound (.receive capacity) s := by
  have hr : .spiReadError ∈ errKinds (.receive capacity) := by simp [errKinds]
  cases p with
  | length => exact ⟨hr, fun bytes u _ hu => pcOk_receiveLength hu capacity _⟩
  | underflow => trivial
  | header len => exact ⟨hr, fun bytes u _ hu => pcOk_receivePayload hu hp.1 hp.2⟩
  | payload len =>
    obtain ⟨h4, hcap, -⟩ := hp
    refine ⟨hr, fun bytes u hn _ => pcOk_finishOk rfl ?_⟩
    have := len.isLt
    unfold payloadCount at hn
    exact ⟨by omega, by omega⟩

theorem readTemperatureAct_sound (p : TempPos) (s : State) :
    (readTemperatureAct p s).Sound .readTemperature s := by
  have hr : .spiReadError ∈ errKinds .readTemperature := by decide
  cases p with
  | start => exact ⟨by decide, fun u hu => pcOk_goto hu trivial⟩
  | running w =>
    have hwait (w : WaitPos) : posOk s (.readTemperature (.running w)) := trivial
    exact waitAct_sound hr hwait (fun u hu => pcOk_goto (p := .readTemperature .raw) hu trivial) w
  | raw =>
    refine ⟨hr, fun bytes u _ _ => pcOk_finishOk rfl ?_⟩
    have := (oneByte bytes).isLt
    show -89 ≤ celsiusOf (oneByte bytes) ∧ celsiusOf (oneByte bytes) ≤ 166
    unfold celsiusOf
    omega

/-- 84 values fill the 84 pairs. -/
theorem dumpPairs_fst {core : List Byte} (h : core.length = 80) (a b c d : Byte) :
    (dumpPairs core a b c d).map Prod.fst = dumpAddresses :=
  List.map_fst_zip (by simp [dumpAddresses, h])

theorem readAllRegistersAct_sound {s : State} {p : DumpPos} (hp : dumpPosOk p) :
    (readAllRegistersAct p).Sound .readAllRegisters s := by
  have hr : .spiReadError ∈ errKinds .readAllRegisters := by decide
  cases p with
  | core => exact ⟨hr, fun bytes u hn hu => pcOk_goto hu hn⟩
  | aux6F core a b c => exact ⟨hr, fun bytes u _ _ => pcOk_finishOk rfl (dumpPairs_fst hp a b c _)⟩
  | _ => exact ⟨hr, fun bytes u _ hu => pcOk_goto hu hp⟩

/-- From a position past its checks every action is sound. -/
theorem actionAt_sound {s : State} {p : Pos} (hv : s.cfg.valid = true) (hp : posOk s p) :
    (actionAt p s).Sound p.command s := by
  cases p with
  | init q => exact initAct_sound hv hp
  | reset q =>
    exact resetAct_sound (c := .reset) (by decide) (fun _ _ => id)
      (fun u hu => pcOk_finishOk (c := .reset) rfl hu) hp
  | setMode target q =>
    exact setModeAct_sound (by simp [Pos.command, errKinds]) (by simp [Pos.command, errKinds]) (fun _ => id)
      (fun u _ => pcOk_finishOk (c := .setMode target) rfl rfl) hp
  | setModemConfig i q =>
    have hmodem (q : ModemPos) : posOk s (.setModemConfig i q) := hp
    refine modemAct_sound (c := .setModemConfig i) (by simp [errKinds]) hmodem (fun u hu => ?_) q
    exact pcOk_finishOk rfl ((valueAllowed_congr hu (.setModemConfig i) .unit).mpr hp)
  | setSyncWords policy words =>
    exact ⟨by simp [Pos.command, errKinds], fun u _ => pcOk_finishOk (c := .setSyncWords policy words) rfl hp⟩
  | setTxPower power =>
    exact ⟨by simp [Pos.command, errKinds], fun u hu => pcOk_finishOk rfl (hu.pwr.trans hp)⟩
  | setFrequency f =>
    refine frequencyAct_sound (by simp [Pos.command, errKinds]) fun u hu => ?_
    exact pcOk_finishOk rfl ((valueAllowed_congr hu (.setFrequency f) .unit).mpr hp)
  | send payload q => exact sendAct_sound hp.1 hp.2
  | isMessageAvailable => exact ⟨by decide, fun bytes u _ hu => pcOk_finishOk rfl (hu.mode.trans hp)⟩
  | receive capacity q => exact receiveAct_sound hp
  | readTemperature q => exact readTemperatureAct_sound q s
  | rssi => exact ⟨by decide, fun bytes u _ _ => pcOk_finishOk rfl trivial⟩
  | readAllRegisters q => exact readAllRegistersAct_sound hp
  | finish c r => trivial

/-! ### Acceptance, and the step -/

/-- A command accepted with a continuation that stands past its checks. -/
theorem pcOk_of_accept {i : Instr} {k : State → State} {s t : State} (he : exec i s = accept i k s)
    (h : exec i s = .next t) (hk : (k (s.emit (.cmd i))).PcOk) : t.PcOk := by
  rw [he, accept, Host.Outcome.next.injEq] at h
  exact h ▸ hk

/-- A command accepted at `Idle` stands at its first label, past the checks it makes before any event. -/
theorem exec_idle_pcOk {i : Instr} {s t : State} (hs : s.pc = .idle) (h : exec i s = .next t) : t.PcOk := by
  have hsame : SameRegs s (s.emit (.cmd i)) := sameRegs_emit _ s
  cases i with
  | rd a => rw [exec_rd_of_idle hs] at h; cases h
  | wr a => rw [exec_wr_of_idle hs] at h; cases h
  | init => exact pcOk_of_accept (exec_init_of_idle hs) h (pcOk_goto hsame trivial)
  | reset => exact pcOk_of_accept (exec_reset_of_idle hs) h (pcOk_goto hsame trivial)
  | setMode target =>
    exact pcOk_of_accept (exec_setMode_of_idle hs target) h
      (pcOk_enterSetMode hsame (fun _ => id) fun hm => pcOk_finishOk (c := .setMode target) rfl hm)
  | setModemConfig i =>
    cases hv : presetAt s.cfg i with
    | some v =>
      exact pcOk_of_accept (exec_setModemConfig_of_idle hs hv) h
        (pcOk_goto hsame (Option.isSome_iff_exists.mpr ⟨v, hv⟩))
    | none =>
      rw [exec_setModemConfig_outside hs (List.getElem?_eq_none_iff.mp hv)] at h
      cases h
  | setSyncWords policy words =>
    exact pcOk_of_accept (exec_setSyncWords_of_idle hs policy words) h
      (pcOk_enterSetSyncWords hsame (fun _ => ⟨rfl, by simp [errKinds]⟩) id)
  | setTxPower power =>
    exact pcOk_of_accept (exec_setTxPower_of_idle hs power) h
      (pcOk_goto (s := s.cachePower power) ⟨rfl, rfl, rfl, rfl⟩ rfl)
  | setFrequency f =>
    by_cases hf : frfWord s.cfg f < 2 ^ 24
    · exact pcOk_of_accept (exec_setFrequency_of_idle hs hf) h
        (pcOk_goto hsame (Option.isSome_iff_exists.mpr ⟨_, frfBytes_of_lt hf⟩))
    · rw [exec_setFrequency_too_large hs (Nat.not_lt.mp hf)] at h
      cases h
  | send payload =>
    refine pcOk_of_accept (exec_send_of_idle hs payload) h ?_
    split
    · exact pcOk_raise rfl (by simp [errKinds]) _
    · next hl => exact pcOk_goto hsame ⟨Nat.not_lt.mp hl, trivial⟩
  | isMessageAvailable =>
    refine pcOk_of_accept (exec_isMessageAvailable_of_idle hs) h ?_
    split
    · next hm => exact pcOk_goto hsame hm
    · exact pcOk_raise rfl (by decide) _
  | receive capacity => exact pcOk_of_accept (exec_receive_of_idle hs capacity) h (pcOk_goto hsame trivial)
  | readTemperature => exact pcOk_of_accept (exec_readTemperature_of_idle hs) h (pcOk_goto hsame trivial)
  | rssi => exact pcOk_of_accept (exec_rssi_of_idle hs) h (pcOk_goto hsame trivial)
  | readAllRegisters => exact pcOk_of_accept (exec_readAllRegisters_of_idle hs) h (pcOk_goto hsame trivial)

theorem perform_keeps_wf {c : Instr} {a : Action} {s t : State} (hq : a.quiet) (hwf : Memory.wf s.chip)
    (h : perform c a s = .next t) : Memory.wf t.chip := by
  obtain ⟨addr, bytes, k, -, -, q⟩ | ⟨addr, n, k, -, -, q⟩ | ⟨k, -, q⟩ | ⟨k, -, q⟩ | ⟨d, k, -, q⟩ | ⟨r, -, rfl⟩ :=
    perform_next hq h
  · rw [q.chip, State.afterWrite_chip]
    exact wf_recordWrite hwf
  · rw [q.chip, State.afterRead_chip]
    exact hwf
  · rw [q.chip, State.afterHigh_chip]
    exact List.Pairwise.nil
  · rw [q.chip, State.afterLow_chip]
    exact hwf
  · rw [q.chip]
    exact hwf
  · exact hwf

/-- Whatever is executed in a state of the invariant leads to one. -/
theorem exec_keeps_inv {i : Instr} {s t : State} (hinv : s.Inv) (h : exec i s = .next t) : t.Inv := by
  cases hp : s.pc with
  | idle =>
    have hacc := exec_idle_next hp h
    exact ⟨hacc.cfg ▸ hinv.cfg, hacc.chip ▸ hinv.chip, exec_idle_pcOk hp h⟩
  | running p =>
    have hok : posOk s p := by simpa only [hp, pcOk] using hinv.pc
    have hperf := exec_running_next hp h
    have hq := actionAt_quiet p s
    obtain ⟨-, hcfg, -⟩ := perform_keeps_hp_cfg_port hq hperf
    exact ⟨hcfg ▸ hinv.cfg, perform_keeps_wf hq hinv.chip hperf,
      perform_pcOk (isCommand_of_posOk hok) (actionAt_sound hinv.cfg hok) hperf⟩

/-- Settles O22: the idle block waits or runs a command of the port, a running one executes the instruction there, and
execution keeps the invariant. -/
theorem everyStepKeepsTheInvariant : Obligations.EveryStepKeepsTheInvariant := by
  intro s t hinv h
  cases hp : s.pc with
  | running p => exact exec_keeps_inv hinv (step_running hp ▸ h)
  | idle =>
    cases hw : s.port with
    | nil =>
      rw [step_of_port_nil hp hw, Host.Outcome.next.injEq] at h
      exact h ▸ hinv
    | cons w rest =>
      have hinv' : State.Inv { s with port := rest } := ⟨hinv.cfg, hinv.chip, by simp only [hp, pcOk]⟩
      cases hd : decodeCmd w with
      | ok i => exact exec_keeps_inv hinv' (step_of_port hp hw hd ▸ h)
      | error e => rw [step_of_port_error hp hw hd] at h; cases h

end Sys2Proof.Machine
end

section
/-! Where the cached mode changes (R177 a, d): at the mode-ready poll of a `set_mode`, and only if the byte read shows
mode-ready; it becomes the target. -/

namespace Sys2Proof.Machine

/-- The positions `wrap` are those of a `set_mode(target)` that command `i` is or calls, and `q` the one after it. -/
structure RunsSetMode (i : Instr) (target : Mode) (wrap : SetModePos → Pos) (q : Pos) : Prop where
  isCommand : i.isCommand = true
  command : ∀ p, (wrap p).command = i
  action : ∀ p s, actionAt (wrap p) s = setModeAct target wrap (State.goto q) p s

theorem runsSetMode_setMode (target : Mode) :
    RunsSetMode (.setMode target) target (.setMode target) (.finish (.setMode target) (.ok .unit)) :=
  ⟨rfl, fun _ => rfl, fun _ _ => rfl⟩

theorem runsSetMode_init :
    RunsSetMode .init .standby (fun p => .init (.toStandby p)) (.finish .init (.ok .unit)) :=
  ⟨rfl, fun _ => rfl, fun _ _ => rfl⟩

theorem runsSetMode_send_transmit (payload : List Byte) :
    RunsSetMode (.send payload) .transmit (fun p => .send payload (.toTransmit p)) (.send payload (.sent .poll)) :=
  ⟨rfl, fun _ => rfl, fun _ _ => rfl⟩

theorem runsSetMode_send_standby (payload : List Byte) :
    RunsSetMode (.send payload) .standby (fun p => .send payload (.toStandby p))
      (.finish (.send payload) (.ok .unit)) :=
  ⟨rfl, fun _ => rfl, fun _ _ => rfl⟩

/-- The four mode-ready polls. -/
theorem modePoll_eq_some_iff {p : Pos} {m : Mode} : p.modePoll = some m ↔
    p = .setMode m (.ready .poll) ∨ (p = .init (.toStandby (.ready .poll)) ∧ m = .standby) ∨
    (∃ payload, p = .send payload (.toTransmit (.ready .poll)) ∧ m = .transmit) ∨
    (∃ payload, p = .send payload (.toStandby (.ready .poll)) ∧ m = .standby) := by
  constructor
  · intro h
    unfold Pos.modePoll at h
    split at h <;> cases h
    · exact .inl rfl
    · exact .inr (.inl ⟨rfl, rfl⟩)
    · exact .inr (.inr (.inl ⟨_, rfl, rfl⟩))
    · exact .inr (.inr (.inr ⟨_, rfl, rfl⟩))
  · rintro (rfl | ⟨rfl, rfl⟩ | ⟨_, rfl, rfl⟩ | ⟨_, rfl, rfl⟩) <;> rfl

/-- Each of them is the poll of a `set_mode` to its target. -/
theorem runsSetMode_of_modePoll {p : Pos} {m : Mode} (h : p.modePoll = some m) :
    ∃ wrap q, RunsSetMode p.command m wrap q ∧ p = wrap (.ready .poll) := by
  obtain rfl | ⟨rfl, rfl⟩ | ⟨payload, rfl, rfl⟩ | ⟨payload, rfl, rfl⟩ := modePoll_eq_some_iff.mp h
  · exact ⟨_, _, runsSetMode_setMode m, rfl⟩
  · exact ⟨_, _, runsSetMode_init, rfl⟩
  · exact ⟨_, _, runsSetMode_send_transmit payload, rfl⟩
  · exact ⟨_, _, runsSetMode_send_standby payload, rfl⟩

/-- An event whose continuation keeps the cached mode keeps it, answered `ok` or `fail`. -/
theorem perform_keeps_mode {c : Instr} {a : Action} {s t : State} (hk : a.keepsMode) (h : perform c a s = .next t) :
    t.mode = s.mode := by
  cases a with
  | write addr bytes k =>
    obtain ⟨-, ⟨-, rfl⟩ | ⟨-, rfl⟩⟩ := memWrite_next h
    · exact (hk _).trans (State.afterWrite_mode addr bytes s)
    · exact State.afterWrite_mode addr bytes s
  | read addr n k =>
    obtain ⟨-, ⟨bytes, -, rfl⟩ | ⟨-, rfl⟩⟩ := memRead_next h
    · exact hk bytes _
    · rfl
  | lineHigh k =>
    obtain ⟨-, rfl⟩ | ⟨-, rfl⟩ := lineHigh_next h
    · exact (hk _).trans (State.afterHigh_mode s)
    · exact State.afterHigh_mode s
  | lineLow k =>
    obtain ⟨-, rfl⟩ | ⟨-, rfl⟩ := lineLow_next h
    · exact (hk _).trans (State.afterLow_mode s)
    · exact State.afterLow_mode s
  | delay d k =>
    obtain rfl := delayFor_next h
    exact hk _
  | result r =>
    obtain rfl := respond_next h
    rfl
  | fault f => cases h
  | refuse r => cases h

/-- The test of a wait for a set bit. -/
theorem waitOver_set_iff {mask b : Byte} : waitOver mask true b = true ↔ b &&& mask ≠ 0#8 := by
  simp [waitOver, statusBit]

/-- A mode-ready poll that changes the cached mode was answered with a byte that shows mode-ready. -/
theorem perform_modePoll {c : Instr} {target : Mode} {wrap : SetModePos → Pos} {done : State → State} {s t : State}
    (hk : KeepsMode done) (h : perform c (setModeAct target wrap done (.ready .poll) s) s = .next t)
    (hne : t.mode ≠ s.mode) : (∃ b, s.dataAt 0 1 = some [b] ∧ b &&& s.cfg.mModeReady ≠ 0#8) ∧ t.mode = target := by
  simp only [setModeAct, waitAct, perform] at h
  obtain ⟨-, ⟨bytes, hd, rfl⟩ | ⟨-, rfl⟩⟩ := memRead_next h
  · have hbyte : s.dataAt 0 1 = some [oneByte bytes] := State.dataAt_one hd ▸ hd
    split at hne
    · next hover =>
      rw [if_pos hover]
      exact ⟨⟨_, hbyte, waitOver_set_iff.mp hover⟩, hk _⟩
    · exact absurd rfl hne
  · exact absurd rfl hne

/-- Settles O14: acceptance and every event but a mode-ready poll keep the cached mode, and at a poll the byte read
decides. -/
theorem cachedModeChangesOnlyWhenModeReadyIsSeen : Obligations.CachedModeChangesOnlyWhenModeReadyIsSeen := by
  intro i s t h hne
  cases hp : s.pc with
  | idle => exact absurd (exec_idle_next hp h).mode hne
  | running p =>
    have hperf := exec_running_next hp h
    cases hpoll : p.modePoll with
    | none => exact absurd (perform_keeps_mode (actionAt_keepsMode hpoll s) hperf) hne
    | some target =>
      obtain ⟨wrap, q, hset, rfl⟩ := runsSetMode_of_modePoll hpoll
      rw [hset.action] at hperf
      obtain ⟨hready, rfl⟩ := perform_modePoll (keepsMode_goto q) hperf hne
      simpa [hready] using modePoll_eq_some_iff.mp hpoll

end Sys2Proof.Machine
end

section
/-! Runs: a command from its acceptance on, by the events it has observed. These alone decide how many answers are
used up, the reset line and the record of register writes; only the cached mode, the cached power and the position
have to be named beside them. -/

namespace Sys2Proof.Machine

/-! ### What the events decide -/

/-- The level of the reset line after an event (R39, 93 U18). -/
def lineAfter (level : LineLevel) : Event → LineLevel
  | .rstHigh ok => if ok then .high else level
  | .rstLow ok => if ok then .low else level
  | .cmd _ => level
  | .res _ => level
  | .busW _ _ _ => level
  | .busR _ _ _ => level
  | .delay _ => level

/-- The record of register writes after an event, with the FIFO at address `fifo` (R51, R53, R262). -/
def recordAfter (fifo : Addr) (m : Memory) : Event → Memory
  | .busW a bytes ok =>
    if a = fifo then m
    else if ok then Memory.storeBurst a.toNat bytes m
    else Memory.forgetBurst a.toNat bytes.length m
  | .rstHigh _ => []
  | .rstLow _ => m
  | .cmd _ => m
  | .res _ => m
  | .busR _ _ _ => m
  | .delay _ => m

/-- The state after the events `evs`, with this cached mode, cached power and position. -/
def State.reached (evs : List Event) (mode : Mode) (pwr : BitVec 8) (pc : Pc) (s : State) : State :=
  { s.answered (evs.countP takesAnswer) with
    mode := mode
    pwr := pwr
    pc := pc
    line := evs.foldl lineAfter s.line
    trace := s.trace ++ evs
    chip := evs.foldl (recordAfter s.cfg.aFifo) s.chip }

section Reached
variable (evs : List Event) (mode : Mode) (pwr : BitVec 8) (pc : Pc) (s : State)

@[simp] theorem State.reached_mode : (s.reached evs mode pwr pc).mode = mode := rfl
@[simp] theorem State.reached_pwr : (s.reached evs mode pwr pc).pwr = pwr := rfl
@[simp] theorem State.reached_hp : (s.reached evs mode pwr pc).hp = s.hp := rfl
@[simp] theorem State.reached_pc : (s.reached evs mode pwr pc).pc = pc := rfl
@[simp] theorem State.reached_cfg : (s.reached evs mode pwr pc).cfg = s.cfg := rfl

@[simp] theorem State.okAt_reached (k : Nat) :
    (s.reached evs mode pwr pc).okAt k = s.okAt (evs.countP takesAnswer + k) :=
  State.okAt_of_drop k rfl rfl

@[simp] theorem State.dataAt_reached (k n : Nat) :
    (s.reached evs mode pwr pc).dataAt k n = s.dataAt (evs.countP takesAnswer + k) n :=
  State.dataAt_of_drop k n rfl rfl

variable {evs mode pwr pc s}

/-- The answer that was `j` places away at `s`. -/
theorem State.okAt_reached_of {j k : Nat} {ok : Bool} (h : s.okAt j = ok) (hj : evs.countP takesAnswer + k = j) :
    (s.reached evs mode pwr pc).okAt k = ok := by
  rw [State.okAt_reached, hj, h]

theorem State.dataAt_reached_of {j k n : Nat} {data : Option (List Byte)} (h : s.dataAt j n = data)
    (hj : evs.countP takesAnswer + k = j) : (s.reached evs mode pwr pc).dataAt k n = data := by
  rw [State.dataAt_reached, hj, h]

end Reached

theorem State.reached_nil (s : State) : s.reached [] s.mode s.pwr s.pc = s :=
  State.eq_of_fields rfl rfl rfl rfl rfl rfl rfl rfl rfl (List.append_nil _) rfl

/-- Further events from a state reached. -/
theorem State.reached_reached (evs evs' : List Event) (mode mode' : Mode) (pwr pwr' : BitVec 8) (pc pc' : Pc)
    (s : State) :
    (s.reached evs mode pwr pc).reached evs' mode' pwr' pc' = s.reached (evs ++ evs') mode' pwr' pc' := by
  apply State.eq_of_fields <;> simp [State.reached, Nat.add_assoc]

theorem afterWrite_eq_reached {s : State} (ho : s.okAt 0 = true) (a : Addr) (bytes : List Byte) :
    s.afterWrite a bytes = s.reached [.busW a bytes true] s.mode s.pwr s.pc := by
  apply State.eq_of_fields <;>
    simp [State.reached, takesAnswer, lineAfter, recordAfter, State.recordWrite_chip, ho]

theorem afterRead_eq_reached {s : State} {n : Nat} {data : Option (List Byte)} (hd : s.dataAt 0 n = data) (a : Addr) :
    s.afterRead a n = s.reached [.busR a n data] s.mode s.pwr s.pc := by
  apply State.eq_of_fields <;> simp [State.reached, takesAnswer, lineAfter, recordAfter, hd]

theorem afterHigh_eq_reached {s : State} {ok : Bool} (ho : s.okAt 0 = ok) :
    s.afterHigh = s.reached [.rstHigh ok] s.mode s.pwr s.pc := by
  apply State.eq_of_fields <;> simp [State.reached, takesAnswer, lineAfter, recordAfter, ho]

theorem afterLow_eq_reached {s : State} {ok : Bool} (ho : s.okAt 0 = ok) :
    s.afterLow = s.reached [.rstLow ok] s.mode s.pwr s.pc := by
  apply State.eq_of_fields <;> simp [State.reached, takesAnswer, lineAfter, recordAfter, ho]

/-! ### The record of a whole run -/

/-- Acknowledged writes are recorded one after another. -/
theorem recordWrites_chip (w : List (Addr × List Byte)) (s : State) :
    (State.recordWrites w s).chip = (writeEvents w).foldl (recordAfter s.cfg.aFifo) s.chip := by
  induction w generalizing s with
  | nil => rfl
  | cons x w ih =>
    obtain ⟨a, bytes⟩ := x
    rw [State.recordWrites, ih, State.recordWrite_cfg, State.recordWrite_chip]
    rfl

/-- A wait records nothing. -/
@[simp] theorem foldl_recordAfter_waitEvents (fifo addr : Addr) (d : Delay) (bytes : List Byte) (m : Memory) :
    (waitEvents addr d bytes).foldl (recordAfter fifo) m = m := by
  induction bytes with
  | nil => rfl
  | cons b bs ih => exact ih

@[simp] theorem foldl_lineAfter_waitEvents (addr : Addr) (d : Delay) (bytes : List Byte) (level : LineLevel) :
    (waitEvents addr d bytes).foldl lineAfter level = level := by
  induction bytes with
  | nil => rfl
  | cons b bs ih => exact ih

@[simp] theorem foldl_lineAfter_writeEvents (w : List (Addr × List Byte)) (level : LineLevel) :
    (writeEvents w).foldl lineAfter level = level := by
  induction w with
  | nil => rfl
  | cons x w ih => exact ih

/-- A poll that does not end its wait takes one answer in its two events. -/
@[simp] theorem countP_waitEvents (addr : Addr) (d : Delay) (bytes : List Byte) :
    (waitEvents addr d bytes).countP takesAnswer = bytes.length := by
  induction bytes with
  | nil => rfl
  | cons b bs ih =>
    change ([Event.busR addr 1 (some [b]), .delay d] ++ waitEvents addr d bs).countP takesAnswer = bs.length + 1
    rw [List.countP_append, ih, Nat.add_comm]
    rfl

@[simp] theorem length_waitEvents (addr : Addr) (d : Delay) (bytes : List Byte) :
    (waitEvents addr d bytes).length = 2 * bytes.length := by
  simp [waitEvents, Nat.mul_comm]

@[simp] theorem countP_writeEvents (w : List (Addr × List Byte)) : (writeEvents w).countP takesAnswer = w.length := by
  rw [writeEvents, List.countP_map, ← List.countP_true]
  rfl

@[simp] theorem length_writeEvents (w : List (Addr × List Byte)) : (writeEvents w).length = w.length :=
  List.length_map _

/-! ### A run -/

/-- `i` executed from `s` observes `evs`, one in each step, and leaves this cached mode, cached power and position. -/
def Runs (i : Instr) (evs : List Event) (s : State) (mode : Mode) (pwr : BitVec 8) (pc : Pc) : Prop :=
  execFor i evs.length s = .next (s.reached evs mode pwr pc)

section Run
variable {i : Instr} {evs evs' : List Event} {s : State} {mode mode' : Mode} {pwr pwr' : BitVec 8} {pc pc' : Pc}

theorem runs_nil : Runs i [] s s.mode s.pwr s.pc := congrArg Host.Outcome.next (State.reached_nil s).symm

theorem Runs.trans (h : Runs i evs s mode pwr pc) (h' : Runs i evs' (s.reached evs mode pwr pc) mode' pwr' pc') :
    Runs i (evs ++ evs') s mode' pwr' pc' := by
  rw [Runs, List.length_append, execFor_add h, h', State.reached_reached]

theorem Runs.cons {e : Event} (h : Runs i [e] s mode pwr pc)
    (h' : Runs i evs (s.reached [e] mode pwr pc) mode' pwr' pc') : Runs i (e :: evs) s mode' pwr' pc' :=
  h.trans h'

/-- What `execFor` answers, with every field written out. -/
theorem Runs.execFor_eq (h : Runs i evs s mode pwr pc) {n k : Nat} {line : LineLevel} {chip : Memory}
    (hlen : evs.length = n) (hused : evs.countP takesAnswer = k) (hline : evs.foldl lineAfter s.line = line)
    (hchip : evs.foldl (recordAfter s.cfg.aFifo) s.chip = chip) :
    execFor i n s = .next { s.answered k with
      mode := mode, pwr := pwr, pc := pc, line := line, trace := s.trace ++ evs, chip := chip } := by
  subst hlen hused hline hchip
  exact h

/-- The same for a whole command, from `Idle` to `Idle`. -/
theorem Runs.execFor_eq_of_idle (h : Runs i evs s mode pwr .idle) (hs : s.pc = .idle) {n k : Nat} {line : LineLevel}
    {chip : Memory} (hlen : evs.length = n) (hused : evs.countP takesAnswer = k)
    (hline : evs.foldl lineAfter s.line = line) (hchip : evs.foldl (recordAfter s.cfg.aFifo) s.chip = chip) :
    execFor i n s = .next { s.answered k with
      mode := mode, pwr := pwr, line := line, trace := s.trace ++ evs, chip := chip } := by
  rw [← hs] at h
  exact h.execFor_eq hlen hused hline hchip

theorem runs_of_exec {e : Event} (h : exec i s = .next (s.reached [e] mode pwr pc)) : Runs i [e] s mode pwr pc :=
  execFor_next h

theorem runs_accept {k : State → State} {q : Pos} (he : exec i s = accept i k s)
    (hk : k (s.emit (.cmd i)) = (s.emit (.cmd i)).goto q) : Runs i [.cmd i] s s.mode s.pwr (.running q) :=
  runs_of_exec (exec_eq_next_of_accept he hk)

/-! ### One event of the running command -/

section Running
variable {p : Pos} (hp : s.pc = .running p) (hi : p.command = i) (hc : i.isCommand = true)
include hp hi hc

/-- The event at the position, by its outcome. -/
theorem runs_of_perform {a : Action} {e : Event} (ha : actionAt p s = a)
    (h : perform i a s = .next (s.reached [e] mode pwr pc)) : Runs i [e] s mode pwr pc := by
  subst hi ha
  exact runs_of_exec ((exec_command hp hc).trans h)

theorem runs_write {a : Addr} {bytes : List Byte} {k : State → State} (ha : actionAt p s = .write a bytes k)
    (hl : legalBurst s.cfg a bytes.length = true) (ho : s.okAt 0 = true)
    (hk : k (s.reached [.busW a bytes true] s.mode s.pwr s.pc) = s.reached [.busW a bytes true] mode pwr pc) :
    Runs i [.busW a bytes true] s mode pwr pc :=
  runs_of_perform hp hi hc ha ((memWrite_ok hl ho).trans (by rw [afterWrite_eq_reached ho, hk]))

theorem runs_read {a : Addr} {n : Nat} {bytes : List Byte} {k : List Byte → State → State}
    (ha : actionAt p s = .read a n k) (hl : legalBurst s.cfg a n = true) (hd : s.dataAt 0 n = some bytes)
    (hk : k bytes (s.reached [.busR a n (some bytes)] s.mode s.pwr s.pc) =
      s.reached [.busR a n (some bytes)] mode pwr pc) : Runs i [.busR a n (some bytes)] s mode pwr pc :=
  runs_of_perform hp hi hc ha ((memRead_ok hl hd).trans (by rw [afterRead_eq_reached hd, hk]))

theorem runs_failed_read {a : Addr} {n : Nat} {k : List Byte → State → State} (ha : actionAt p s = .read a n k)
    (hl : legalBurst s.cfg a n = true) (hd : s.dataAt 0 n = none) :
    Runs i [.busR a n none] s s.mode s.pwr (.running (.finish i (.err .spiReadError))) :=
  runs_of_perform hp hi hc ha ((memRead_fail hl hd).trans (by rw [afterRead_eq_reached hd]; rfl))

theorem runs_high {q : Pos} (ha : actionAt p s = .lineHigh (State.goto q)) (ho : s.okAt 0 = true) :
    Runs i [.rstHigh true] s s.mode s.pwr (.running q) :=
  runs_of_perform hp hi hc ha (by rw [perform, lineHigh, if_pos ho, afterHigh_eq_reached ho]; rfl)

theorem runs_failed_high {k : State → State} (ha : actionAt p s = .lineHigh k) (ho : s.okAt 0 = false) :
    Runs i [.rstHigh false] s s.mode s.pwr (.running (.finish i (.err .resetError))) :=
  runs_of_perform hp hi hc ha (by
    rw [perform, lineHigh, if_neg (ne_true_of_eq_false ho), afterHigh_eq_reached ho]; rfl)

theorem runs_low {q : Pos} (ha : actionAt p s = .lineLow (State.goto q)) (ho : s.okAt 0 = true) :
    Runs i [.rstLow true] s s.mode s.pwr (.running q) :=
  runs_of_perform hp hi hc ha (by rw [perform, lineLow, if_pos ho, afterLow_eq_reached ho]; rfl)

theorem runs_failed_low {k : State → State} (ha : actionAt p s = .lineLow k) (ho : s.okAt 0 = false) :
    Runs i [.rstLow false] s s.mode s.pwr (.running (.finish i (.err .resetError))) :=
  runs_of_perform hp hi hc ha (by
    rw [perform, lineLow, if_neg (ne_true_of_eq_false ho), afterLow_eq_reached ho]; rfl)

theorem runs_delay {d : Delay} {q : Pos} (ha : actionAt p s = .delay d (State.goto q)) :
    Runs i [.delay d] s s.mode s.pwr (.running q) :=
  runs_of_perform hp hi hc ha rfl

end Running

/-- The result, after which the block is idle. -/
theorem runs_result {r : Result} (hp : s.pc = .running (.finish i r)) (hc : i.isCommand = true) :
    Runs i [.res r] s s.mode s.pwr .idle :=
  runs_of_perform hp rfl hc rfl rfl

end Run

/-! ### Writes in a row -/

/-- From position `p` command `i` makes these writes, legal with configuration `c`, one after another, and stands at
the last position. -/
inductive WriteChain (i : Instr) (c : Cfg) : Pos → List (Addr × List Byte) → Pos → Prop
  | nil (p : Pos) : WriteChain i c p [] p
  | cons {p q r : Pos} {a : Addr} {bytes : List Byte} {w : List (Addr × List Byte)} (hi : p.command = i)
      (hl : legalBurst c a bytes.length = true)
      (ha : ∀ s, s.cfg = c → actionAt p s = .write a bytes (State.goto q)) (rest : WriteChain i c q w r) :
      WriteChain i c p ((a, bytes) :: w) r

theorem WriteChain.runs {i : Instr} {c : Cfg} {p q : Pos} {w : List (Addr × List Byte)} (h : WriteChain i c p w q)
    (hc : i.isCommand = true) {s : State} (hs : s.cfg = c) (hp : s.pc = .running p)
    (hok : ∀ k < w.length, s.okAt k = true) : Runs i (writeEvents w) s s.mode s.pwr (.running q) := by
  induction h generalizing s with
  | nil p => exact hp ▸ runs_nil
  | cons hi hl ha rest ih =>
    refine (runs_write hp hi hc (ha s hs) (hs ▸ hl) (hok 0 (Nat.succ_pos _)) rfl).cons (ih hs rfl fun k hk => ?_)
    simpa [takesAnswer, Nat.add_comm] using hok (k + 1) (Nat.succ_lt_succ hk)

end Sys2Proof.Machine
end

section
/-! The reset pulse (R174), of `reset` and of step 1 of `init`: the two drives with a delay after each. -/

namespace Sys2Proof.Machine

/-- The positions `wrap` are those of a reset pulse that command `i` is or begins with, and `q` the one that follows. -/
structure RunsPulse (i : Instr) (wrap : ResetPos → Pos) (q : Pos) : Prop where
  isCommand : i.isCommand = true
  command : ∀ p, (wrap p).command = i
  action : ∀ p s, actionAt (wrap p) s = resetAct wrap (State.goto q) p

theorem runsPulse_reset : RunsPulse .reset .reset (.finish .reset (.ok .unit)) :=
  ⟨rfl, fun _ => rfl, fun _ _ => rfl⟩

theorem runsPulse_init : RunsPulse .init (fun p => .init (.pulse p)) (.init .version) :=
  ⟨rfl, fun _ => rfl, fun _ _ => rfl⟩

section Pulse
variable {i : Instr} {wrap : ResetPos → Pos} {q : Pos} {s : State} (hr : RunsPulse i wrap q)
  (hp : s.pc = .running (wrap .high)) (h0 : s.okAt 0 = true)
include hr hp h0

/-- Up to the drive to low. -/
theorem runs_pulse_to_low : Runs i [.rstHigh true, .delay (.us 100)] s s.mode s.pwr (.running (wrap .low)) :=
  (runs_high hp (hr.command _) hr.isCommand (hr.action .high s) h0).trans
    (runs_delay rfl (hr.command _) hr.isCommand (hr.action .hold _))

theorem runs_pulse (h1 : s.okAt 1 = true) :
    Runs i [.rstHigh true, .delay (.us 100), .rstLow true, .delay (.ms 5)] s s.mode s.pwr (.running q) := by
  refine (runs_pulse_to_low hr hp h0).trans ?_
  refine .cons (runs_low rfl (hr.command _) hr.isCommand (hr.action .low _) (State.okAt_reached_of h1 rfl)) ?_
  exact runs_delay rfl (hr.command _) hr.isCommand (hr.action .settle _)

/-- A failed drive to low ends the pulse before the settle delay. -/
theorem runs_pulse_failed_low (h1 : s.okAt 1 = false) :
    Runs i [.rstHigh true, .delay (.us 100), .rstLow false] s s.mode s.pwr
      (.running (.finish i (.err .resetError))) := by
  refine (runs_pulse_to_low hr hp h0).trans ?_
  exact runs_failed_low rfl (hr.command _) hr.isCommand (hr.action .low _) (State.okAt_reached_of h1 rfl)

end Pulse

/-- Settles O35: the whole pulse and the result, or the pulse up to the drive that fails and its error. -/
theorem resetPulsesTheLineAndKeepsTheCaches : Obligations.ResetPulsesTheLineAndKeepsTheCaches := by
  intro s hs
  have haccept : Runs .reset [.cmd .reset] s s.mode s.pwr (.running (.reset .high)) :=
    runs_accept (exec_reset_of_idle hs) rfl
  refine ⟨fun h0 h1 => ?_, fun h0 h1 => ?_, fun h0 => ?_⟩
  · have hrun := (haccept.trans (runs_pulse runsPulse_reset rfl h0 h1)).trans (runs_result rfl rfl)
    exact hrun.execFor_eq_of_idle hs rfl rfl rfl rfl
  · have hrun := (haccept.trans (runs_pulse_failed_low runsPulse_reset rfl h0 h1)).trans (runs_result rfl rfl)
    exact hrun.execFor_eq_of_idle hs rfl rfl rfl rfl
  · have hrun := (haccept.trans (runs_failed_high rfl rfl rfl rfl h0)).trans (runs_result rfl rfl)
    exact hrun.execFor_eq_of_idle hs rfl rfl rfl rfl

end Sys2Proof.Machine
end

section
/-! The waits (R172): a poll that does not show the wanted bit is followed by a delay and the same poll again, however
often. -/

namespace Sys2Proof.Machine

/-- With configuration `c` the positions `wrap` are those of a `WaitFlag(addr, mask, want)` of command `i`, and `done`
is what follows it. -/
structure RunsWait (i : Instr) (c : Cfg) (addr : Addr) (mask : Byte) (want : Bool) (wrap : WaitPos → Pos)
    (done : State → State) : Prop where
  isCommand : i.isCommand = true
  command : ∀ w, (wrap w).command = i
  action : ∀ w s, s.cfg = c → actionAt (wrap w) s = waitAct addr mask want wrap done w s
  legal : legalBurst c addr 1 = true

/-- The wait for mode-ready of a `set_mode`. -/
theorem RunsSetMode.ready {i : Instr} {target : Mode} {wrap : SetModePos → Pos} {q : Pos}
    (h : RunsSetMode i target wrap q) {c : Cfg} (hv : c.valid = true) :
    RunsWait i c c.aIrq1 c.mModeReady true (fun w => wrap (.ready w)) (fun t => (t.cacheMode target).goto q) where
  isCommand := h.isCommand
  command w := h.command _
  action w s hs := by rw [h.action, setModeAct, hs]
  legal := legal_single hv (by simp [Cfg.singleAddresses])

theorem runsWait_sent {c : Cfg} (hv : c.valid = true) (payload : List Byte) :
    RunsWait (.send payload) c c.aIrq2 c.mPacketSent true (fun w => .send payload (.sent w))
      (sendLastStep payload) where
  isCommand := rfl
  command w := rfl
  action w s hs := by rw [actionAt, sendAct, hs]
  legal := legal_single hv (by simp [Cfg.singleAddresses])

theorem runsWait_temperature {c : Cfg} (hv : c.valid = true) :
    RunsWait .readTemperature c c.aTemp1 c.mTempRunning false (fun w => .readTemperature (.running w))
      (State.goto (.readTemperature .raw)) where
  isCommand := rfl
  command w := rfl
  action w s hs := by rw [actionAt, readTemperatureAct, hs]
  legal := legal_single hv (by simp [Cfg.singleAddresses])

section Wait
variable {i : Instr} {c : Cfg} {addr : Addr} {mask : Byte} {want : Bool} {wrap : WaitPos → Pos} {done : State → State}
  (hw : RunsWait i c addr mask want wrap done)
include hw

/-- A poll that ends the wait. -/
theorem RunsWait.runs_over {s : State} (hc : s.cfg = c) (hp : s.pc = .running (wrap .poll)) {b : Byte}
    (hd : s.dataAt 0 1 = some [b]) (hb : waitOver mask want b = true) {mode : Mode} {pwr : BitVec 8} {pc : Pc}
    (hk : done (s.reached [.busR addr 1 (some [b])] s.mode s.pwr s.pc) =
      s.reached [.busR addr 1 (some [b])] mode pwr pc) :
    Runs i [.busR addr 1 (some [b])] s mode pwr pc :=
  runs_read hp (hw.command _) hw.isCommand (hw.action .poll s hc) (hc ▸ hw.legal) hd ((if_pos hb).trans hk)

/-- A poll that does not, and the delay after it. -/
theorem RunsWait.runs_again {s : State} (hc : s.cfg = c) (hp : s.pc = .running (wrap .poll)) {b : Byte}
    (hd : s.dataAt 0 1 = some [b]) (hb : waitOver mask want b = false) :
    Runs i [.busR addr 1 (some [b]), .delay c.pollDelay] s s.mode s.pwr (.running (wrap .poll)) := by
  refine .cons (runs_read hp (hw.command _) hw.isCommand (hw.action .poll s hc) (hc ▸ hw.legal) hd
    ((if_neg (ne_true_of_eq_false hb)).trans rfl)) ?_
  subst hc
  exact runs_delay rfl (hw.command _) hw.isCommand (hw.action .sleep _ rfl)

/-- Any number of polls that do not. -/
theorem RunsWait.runs_unready {bytes : List Byte} {s : State} (hc : s.cfg = c) (hp : s.pc = .running (wrap .poll))
    (hd : ∀ (k : Nat) (h : k < bytes.length), s.dataAt k 1 = some [bytes[k]])
    (hb : ∀ b ∈ bytes, waitOver mask want b = false) :
    Runs i (waitEvents addr c.pollDelay bytes) s s.mode s.pwr (.running (wrap .poll)) := by
  induction bytes generalizing s with
  | nil => exact hp ▸ runs_nil
  | cons b bs ih =>
    refine (hw.runs_again hc hp (hd 0 (Nat.succ_pos _)) (hb b List.mem_cons_self)).trans (ih hc rfl ?_ ?_)
    · exact fun k hk => State.dataAt_reached_of (hd (k + 1) (Nat.succ_lt_succ hk)) (Nat.add_comm 1 k)
    · exact fun b' hb' => hb b' (List.mem_cons_of_mem b hb')

/-- However many polls do not end it, the wait is at the same poll. -/
theorem RunsWait.execFor_unready {bytes : List Byte} {s : State} (hc : s.cfg = c)
    (hp : s.pc = .running (wrap .poll)) (hd : ∀ (k : Nat) (h : k < bytes.length), s.dataAt k 1 = some [bytes[k]])
    (hb : ∀ b ∈ bytes, waitOver mask want b = false) :
    execFor i (2 * bytes.length) s = .next { s.answered bytes.length with
      trace := s.trace ++ waitEvents addr c.pollDelay bytes } := by
  have hrun := hw.runs_unready hc hp hd hb
  rw [← hp] at hrun
  exact hrun.execFor_eq (length_waitEvents _ _ _) (countP_waitEvents _ _ _) (foldl_lineAfter_waitEvents _ _ _ _)
    (foldl_recordAfter_waitEvents _ _ _ _ _)

end Wait

theorem waitOver_set_eq_false {mask b : Byte} (h : b &&& mask = 0#8) : waitOver mask true b = false := by
  simp [waitOver, statusBit, h]

theorem waitOver_clear_eq_false {mask b : Byte} (h : b &&& mask ≠ 0#8) : waitOver mask false b = false := by
  simp [waitOver, statusBit, h]

/-- Settles O39: each of the six places is a poll of a wait, and no number of polls ends one. -/
theorem noWaitEverTimesOut : Obligations.NoWaitEverTimesOut := by
  intro s bytes hv hd
  refine ⟨fun p hp hplace hb => ?_, fun payload hp hb => ?_, fun hp hb => ?_⟩
  · have hpoll : ∃ m, p.modePoll = some m := by
      obtain ⟨target, rfl⟩ | ⟨payload, rfl⟩ | ⟨payload, rfl⟩ | rfl := hplace <;> exact ⟨_, rfl⟩
    obtain ⟨m, hm⟩ := hpoll
    obtain ⟨wrap, q, hset, rfl⟩ := runsSetMode_of_modePoll hm
    exact (hset.ready hv).execFor_unready rfl hp hd fun b hmem => waitOver_set_eq_false (hb b hmem)
  · exact (runsWait_sent hv payload).execFor_unready rfl hp hd fun b hmem => waitOver_set_eq_false (hb b hmem)
  · exact (runsWait_temperature hv).execFor_unready rfl hp hd fun b hmem => waitOver_clear_eq_false (hb b hmem)

end Sys2Proof.Machine
end

section
/-! `set_mode` (R171 to R173): the test-PA writes of an entry into Transmit or Receive at 18 dBm or more, the
read-modify-write of the mode field, the wait for mode-ready. -/

namespace Sys2Proof.Machine

/-! ### The first label -/

/-- The test of `set_mode` for its test-PA writes (R173). -/
abbrev BoostedEntry (target : Mode) (pwr : BitVec 8) : Prop :=
  (target = .transmit ∨ target = .receive) ∧ 18 ≤ dbm pwr

/-- The first label of a `set_mode` to another mode than the cached one. -/
def firstLabel (target : Mode) (pwr : BitVec 8) : SetModePos :=
  if BoostedEntry target pwr then .testPa1 else .readMode

theorem enterSetMode_of_ne {target : Mode} {u : State} (h : target ≠ u.mode) (wrap : SetModePos → Pos)
    (k : State → State) : enterSetMode target wrap k u = u.goto (wrap (firstLabel target u.pwr)) := by
  unfold firstLabel
  split
  · next hb => exact enterSetMode_of_boost h.symm hb
  · next hb => exact enterSetMode_of_no_boost h.symm hb

theorem testPaWrites_of_boosted {target : Mode} {pwr : BitVec 8} (h : BoostedEntry target pwr) (cfg : Cfg) :
    testPaWrites cfg pwr target =
      [(cfg.aTestPa1, [testPa1For cfg target]), (cfg.aTestPa2, [testPa2For cfg target])] := by
  obtain ⟨rfl | rfl, hp⟩ := h <;> exact if_pos hp

theorem testPaWrites_of_not_boosted {target : Mode} {pwr : BitVec 8} (h : ¬BoostedEntry target pwr) (cfg : Cfg) :
    testPaWrites cfg pwr target = [] := by
  unfold testPaWrites
  split
  · next hp =>
    cases target with
    | transmit => exact absurd ⟨.inl rfl, hp⟩ h
    | receive => exact absurd ⟨.inr rfl, hp⟩ h
    | _ => rfl
  · rfl

/-! ### A transition -/

section Transition
variable {i : Instr} {target : Mode} {wrap : SetModePos → Pos} {q : Pos} (hm : RunsSetMode i target wrap q)
include hm

/-- The test-PA writes stand between the first label and the read of the mode register (R171, D18). -/
theorem RunsSetMode.testPa_chain {c : Cfg} (hv : c.valid = true) (pwr : BitVec 8) :
    WriteChain i c (wrap (firstLabel target pwr)) (testPaWrites c pwr target) (wrap .readMode) := by
  unfold firstLabel
  split
  · next hb =>
    rw [testPaWrites_of_boosted hb]
    have hlegal (a : Addr) (ha : a ∈ c.singleAddresses) : legalBurst c a 1 = true := legal_single hv ha
    exact .cons (hm.command _) (hlegal _ (by simp [Cfg.singleAddresses])) (fun s hs => by rw [hm.action, ← hs]; rfl)
      (.cons (hm.command _) (hlegal _ (by simp [Cfg.singleAddresses])) (fun s hs => by rw [hm.action, ← hs]; rfl)
        (.nil _))
  · next hb =>
    rw [testPaWrites_of_not_boosted hb]
    exact .nil _

section From
variable {s : State} (hv : s.cfg.valid = true)
include hv

/-- The read-modify-write of the mode field (R84). -/
theorem RunsSetMode.runs_modeField (hp : s.pc = .running (wrap .readMode)) {old : Byte}
    (hold : s.dataAt 0 1 = some [old]) (hok : s.okAt 1 = true) :
    Runs i [.busR s.cfg.aOpMode 1 (some [old]),
      .busW s.cfg.aOpMode [modeByte old (modeCode s.cfg target)] true] s s.mode s.pwr
      (.running (wrap (.ready .poll))) := by
  have hlegal : legalBurst s.cfg s.cfg.aOpMode 1 = true := legal_single hv (by simp [Cfg.singleAddresses])
  refine .cons (runs_read hp (hm.command _) hm.isCommand (hm.action .readMode s) hlegal hold
    (pc := .running (wrap (.writeMode old))) rfl) ?_
  exact runs_write rfl (hm.command _) hm.isCommand (hm.action (.writeMode old) _) hlegal
    (State.okAt_reached_of hok rfl) rfl

/-- The poll that shows mode-ready, after which the target is cached (R177 a). -/
theorem RunsSetMode.runs_ready (hp : s.pc = .running (wrap (.ready .poll))) {ready : Byte}
    (hd : s.dataAt 0 1 = some [ready]) (hready : ready &&& s.cfg.mModeReady ≠ 0#8) :
    Runs i [.busR s.cfg.aIrq1 1 (some [ready])] s target s.pwr (.running q) :=
  (hm.ready hv).runs_over rfl hp hd (waitOver_set_iff.mpr hready) rfl

/-- The whole transition, with any number of polls that do not show mode-ready. -/
theorem RunsSetMode.runs_transition (hp : s.pc = .running (wrap (firstLabel target s.pwr))) {old ready : Byte}
    {unready : List Byte} (hpa : ∀ k < (testPaWrites s.cfg s.pwr target).length, s.okAt k = true)
    (hold : s.dataAt (testPaWrites s.cfg s.pwr target).length 1 = some [old])
    (hok : s.okAt ((testPaWrites s.cfg s.pwr target).length + 1) = true)
    (hun : ∀ (k : Nat) (h : k < unready.length),
      s.dataAt ((testPaWrites s.cfg s.pwr target).length + 2 + k) 1 = some [unready[k]] ∧
        unready[k] &&& s.cfg.mModeReady = 0#8)
    (hd : s.dataAt ((testPaWrites s.cfg s.pwr target).length + 2 + unready.length) 1 = some [ready])
    (hready : ready &&& s.cfg.mModeReady ≠ 0#8) :
    Runs i (writeEvents (testPaWrites s.cfg s.pwr target) ++
        [.busR s.cfg.aOpMode 1 (some [old]), .busW s.cfg.aOpMode [modeByte old (modeCode s.cfg target)] true] ++
        waitEvents s.cfg.aIrq1 s.cfg.pollDelay unready ++ [.busR s.cfg.aIrq1 1 (some [ready])])
      s target s.pwr (.running q) := by
  have hclear : ∀ b ∈ unready, waitOver s.cfg.mModeReady true b = false := fun b hb => by
    obtain ⟨k, hk, rfl⟩ := List.mem_iff_getElem.mp hb
    exact waitOver_set_eq_false (hun k hk).2
  have hchain := (hm.testPa_chain hv s.pwr).runs hm.isCommand rfl hp hpa
  have hfield := hchain.trans (hm.runs_modeField (s := s.reached _ _ _ _) hv rfl
    (State.dataAt_reached_of hold (by simp)) (State.okAt_reached_of hok (by simp)))
  have hwait := hfield.trans ((hm.ready hv).runs_unready (bytes := unready) rfl rfl
    (fun k hk => State.dataAt_reached_of (hun k hk).1 (by simp [List.countP_cons, takesAnswer])) hclear)
  exact hwait.trans (hm.runs_ready (s := s.reached _ _ _ _) hv rfl
    (State.dataAt_reached_of hd (by simp [List.countP_cons, takesAnswer]; omega)) hready)

end From

end Transition

/-! ### The command -/

/-- Settles O36: to the cached mode `set_mode` is accepted straight into its result. -/
theorem setModeToTheCachedModeIsNoEvent : Obligations.SetModeToTheCachedModeIsNoEvent := by
  intro s hs
  exact run_accepted_to_result hs rfl (exec_setMode_of_idle hs s.mode) (enterSetMode_of_cached rfl)

theorem runs_accept_setMode {s : State} {target : Mode} (hs : s.pc = .idle) (hne : target ≠ s.mode) :
    Runs (.setMode target) [.cmd (.setMode target)] s s.mode s.pwr
      (.running (.setMode target (firstLabel target s.pwr))) :=
  runs_accept (exec_setMode_of_idle hs target) (enterSetMode_of_ne (u := s.emit (.cmd (.setMode target))) hne _ _)

/-- Settles O37: acceptance at the first label, the transition, and the result. -/
theorem setModeWritesTheFieldAndWaitsForModeReady : Obligations.SetModeWritesTheFieldAndWaitsForModeReady := by
  intro s target old ready unready hv hs hne w new hpa hold hok hun hd hready
  have htransition := (runsSetMode_setMode target).runs_transition
    (s := s.reached [.cmd (.setMode target)] s.mode s.pwr (.running (.setMode target (firstLabel target s.pwr))))
    hv rfl hpa hold hok hun hd hready
  have hrun := ((runs_accept_setMode hs hne).trans htransition).trans (runs_result rfl rfl)
  refine Runs.execFor_eq_of_idle ?run hs ?steps ?used ?line ?record
  case run =>
    simp only [List.append_assoc, List.cons_append, List.nil_append] at hrun ⊢
    exact hrun
  case steps => simp; omega
  case used => simp [List.countP_cons, takesAnswer]; omega
  case line => simp [lineAfter]
  case record => simp [recordWrites_chip, writeEvents, recordAfter, new]

/-- Settles O38: below 18 dBm the mode field is written at once, and the poll that fails ends the command before
anything is cached. -/
theorem failedModeReadyPollKeepsTheOldCachedMode : Obligations.FailedModeReadyPollKeepsTheOldCachedMode := by
  intro s target old hv hs hne hpwr new hold hok hfail
  have hm := runsSetMode_setMode target
  have hwait := hm.ready hv
  have hfirst : firstLabel target s.pwr = .readMode := if_neg fun hb => absurd hb.2 (not_le.mpr hpwr)
  have haccept := runs_accept_setMode hs hne
  rw [hfirst] at haccept
  have hfield := haccept.trans (hm.runs_modeField (s := s.reached _ _ _ _) hv rfl hold hok)
  have hpoll := hfield.trans (runs_failed_read (s := s.reached _ _ _ _) rfl rfl rfl (hwait.action .poll _ rfl)
    hwait.legal (State.dataAt_of_fail 1 (State.okAt_reached_of hfail rfl)))
  have hrun := hpoll.trans (runs_result rfl rfl)
  exact hrun.execFor_eq_of_idle hs rfl rfl rfl (recordWrites_chip [(s.cfg.aOpMode, [new])] s).symm

end Sys2Proof.Machine
end

section
/-! `init` (R175): the pulse, the version check, the writes of steps 3 to 11 in table order, the transition to Standby
of step 12. -/

namespace Sys2Proof.Machine

/-! ### Steps 1 and 2 -/

section Start
variable {s : State} (hs : s.pc = .idle) (h0 : s.okAt 0 = true) (h1 : s.okAt 1 = true)
include hs h0 h1

/-- `init` up to the read of the version byte. -/
theorem runs_init_to_version : Runs .init [.cmd .init, .rstHigh true, .delay (.us 100), .rstLow true, .delay (.ms 5)] s
    s.mode s.pwr (.running (.init .version)) :=
  (runs_accept (exec_init_of_idle hs) rfl).trans (runs_pulse runsPulse_init rfl h0 h1)

theorem runs_init_version (hv : s.cfg.valid = true) {b : Byte} (hd : s.dataAt 2 1 = some [b]) :
    Runs .init [.cmd .init, .rstHigh true, .delay (.us 100), .rstLow true, .delay (.ms 5),
      .busR s.cfg.aVersion 1 (some [b])] s s.mode s.pwr
      (.running (if b = s.cfg.versionByte then .init .fifoThresh else .finish .init (.err .spiReadError))) := by
  have hlegal : legalBurst s.cfg s.cfg.aVersion 1 = true := legal_single hv (by simp [Cfg.singleAddresses])
  refine (runs_init_to_version hs h0 h1).trans ?_
  refine runs_read (p := .init .version) rfl rfl rfl rfl hlegal ?data ?next
  case data => exact State.dataAt_reached_of hd rfl
  case next =>
    change (if b = s.cfg.versionByte then State.goto _ _ else State.goto _ _) = _
    split <;> rfl

end Start

/-- Settles O42: the byte read decides between step 3 and the error. -/
theorem initStopsAtAVersionMismatch : Obligations.InitStopsAtAVersionMismatch := by
  intro s b hv hs h0 h1 hd hne
  have hversion := runs_init_version hs h0 h1 hv hd
  rw [if_neg hne] at hversion
  exact (hversion.trans (runs_result rfl rfl)).execFor_eq_of_idle hs rfl rfl rfl rfl

/-! ### Steps 3 to 9 -/

/-- The writes of steps 3 to 8 with configuration `c` and the preset `v`. -/
def initWrites (c : Cfg) (v : Preset) : List (Addr × List Byte) :=
  [(c.aFifoThresh, [c.initFifoThresh]), (c.aTestDagc, [c.initDagc]), (c.aLna, [c.initLna]),
    (c.aSyncConfig, syncByte c.initSyncPolicy c.initSyncWords.length :: c.initSyncWords),
    (c.aTestPa1, [c.testPa1Normal]), (c.aTestPa2, [c.testPa2Normal]),
    (c.aDataModul, [v.v0, v.v1, v.v2, v.v3, v.v4]), (c.aRxBw, [v.v5, v.v6]), (c.aPacketConfig1, [v.v7])]

theorem enterSetSyncWords_init {c : Cfg} (hv : c.valid = true) :
    enterSetSyncWords .init c.initSyncWords (.init .syncWords) = State.goto (.init .syncWords) :=
  funext fun _ => if_neg (ne_true_of_eq_false (initSyncWords_of_valid hv))

/-- A write of `init` that goes straight on to the next label is legal with a configuration of R9. -/
theorem initChain_cons {c : Cfg} (hv : c.valid = true) {p : InitPos} (q : InitPos) {r : Pos} {a : Addr}
    {bytes : List Byte} {w : List (Addr × List Byte)}
    (ha : ∀ s, s.cfg = c → initAct p s = .write a bytes (State.goto (.init q)))
    (rest : WriteChain .init c (.init q) w r) : WriteChain .init c (.init p) ((a, bytes) :: w) r := by
  have hlegal : (initAct p (State.blockReset c)).Performable c := initAct_performable (s := State.blockReset c) hv p
  rw [ha _ rfl] at hlegal
  exact .cons rfl hlegal ha rest

theorem initWrites_chain {c : Cfg} (hv : c.valid = true) {v : Preset} (hpreset : presetAt c c.initPreset = some v) :
    WriteChain .init c (.init .fifoThresh) (initWrites c v) (.init .preamble) := by
  refine initChain_cons hv .dagc (fun s hs => by rw [← hs]; rfl) ?_
  refine initChain_cons hv .lna (fun s hs => by rw [← hs]; rfl) ?_
  refine initChain_cons hv .syncWords (fun s hs => by rw [initAct, hs, enterSetSyncWords_init hv]) ?_
  refine initChain_cons hv .testPa1 (fun s hs => by rw [← hs]; rfl) ?_
  refine initChain_cons hv .testPa2 (fun s hs => by rw [← hs]; rfl) ?_
  refine initChain_cons hv (.modem .modulation) (fun s hs => by rw [← hs]; rfl) ?_
  refine initChain_cons hv (.modem .bandwidth) (fun s hs => by simp only [initAct, modemAct, hs, hpreset]) ?_
  refine initChain_cons hv (.modem .packet) (fun s hs => by simp only [initAct, modemAct, hs, hpreset]) ?_
  refine initChain_cons hv .preamble (fun s hs => by simp only [initAct, modemAct, hs, hpreset]) ?_
  exact .nil _

/-! ### Steps 9 to 12 -/

section End
variable {s : State} (hv : s.cfg.valid = true)
include hv

/-- The preamble, in whose step `set_tx_power` caches 13, and the PA byte of 13 (steps 9, 10). -/
theorem runs_init_power (hp : s.pc = .running (.init .preamble)) (h0 : s.okAt 0 = true) (h1 : s.okAt 1 = true) :
    Runs .init (writeEvents [(s.cfg.aPreamble, preambleBytes s.cfg.initPreamble),
      (s.cfg.aPaLevel, [paByte s.cfg 13 s.hp])]) s s.mode 13 (.running (.init .frequency)) := by
  obtain ⟨-, -, -, hpreamble, -⟩ := legal_bursts hv
  have hpower : legalBurst s.cfg s.cfg.aPaLevel 1 = true := legal_single hv (by simp [Cfg.singleAddresses])
  have haction (u : State) : actionAt (.init .txPower) u =
      .write u.cfg.aPaLevel [paByte u.cfg 13 u.hp] (State.goto (.init .frequency)) := rfl
  refine .cons (runs_write (pc := .running (.init .txPower)) hp rfl rfl rfl hpreamble h0 rfl) ?_
  exact runs_write rfl rfl rfl (haction _) hpower (State.okAt_reached_of h1 rfl) rfl

/-- The frequency (step 11), after which the sequencer is where `set_mode(Standby)` begins. -/
theorem runs_init_frequency (hp : s.pc = .running (.init .frequency)) {bytes : List Byte}
    (hf : frfBytes s.cfg s.cfg.initFreqMhz = some bytes) (h0 : s.okAt 0 = true) {q : Pos}
    (hlast : ∀ u, u.mode = s.mode → initLastStep u = u.goto q) :
    Runs .init [.busW s.cfg.aFrf bytes true] s s.mode s.pwr (.running q) := by
  obtain ⟨-, -, hfrf, -⟩ := legal_bursts hv
  have haction : actionAt (.init .frequency) s = .write s.cfg.aFrf bytes initLastStep := by
    simp only [actionAt, initAct, frequencyAct, hf]
  exact runs_write hp rfl rfl haction (by rwa [frfBytes_length hf]) h0 (hlast _ rfl)

end End

/-- Step 12 at a cached Standby is no event (C1). -/
theorem initLastStep_of_standby {u : State} (h : u.mode = .standby) :
    initLastStep u = u.goto (.finish .init (.ok .unit)) :=
  enterSetMode_of_cached h

/-- Step 12 from another mode is a transition, and one without test-PA writes. -/
theorem initLastStep_of_ne {u : State} (h : u.mode ≠ .standby) :
    initLastStep u = u.goto (.init (.toStandby .readMode)) :=
  enterSetMode_of_no_boost h (by simp)

/-- Settles O40: the twelve steps, of which the last is no event. -/
theorem initFromStandbyProgramsTheChip : Obligations.InitFromStandbyProgramsTheChip := by
  intro s v b2 b1 b0 hv hs hmode hpreset hf w h0 h1 hd hok
  have hversion := runs_init_version hs h0 h1 hv hd
  rw [if_pos rfl] at hversion
  have hwrites := hversion.trans ((initWrites_chain hv hpreset).runs (s := s.reached _ _ _ _) rfl rfl rfl
    fun k hk => State.okAt_reached_of (hok k (Nat.lt_trans hk (show 9 < 12 by decide))) rfl)
  have hpower := hwrites.trans (runs_init_power (s := s.reached _ _ _ _) hv rfl
    (State.okAt_reached_of (hok 9 (by decide)) rfl) (State.okAt_reached_of (hok 10 (by decide)) rfl))
  have hfrequency := hpower.trans (runs_init_frequency (s := s.reached _ _ _ _) hv rfl hf
    (State.okAt_reached_of (hok 11 (by decide)) rfl) fun u hu => initLastStep_of_standby (hu.trans hmode))
  have hrun := hfrequency.trans (runs_result rfl rfl)
  exact hrun.execFor_eq_of_idle hs rfl rfl rfl (recordWrites_chip w { s with chip := [] }).symm

/-- Settles O41: the frequency, the mode field and the wait, over at its first poll. -/
theorem initEndsWithARealTransitionFromAnotherMode : Obligations.InitEndsWithARealTransitionFromAnotherMode := by
  intro s bytes old ready hv hp hne hf new h0 hold hok hd hready
  have hchip := (recordWrites_chip [(s.cfg.aFrf, bytes), (s.cfg.aOpMode, [new])] s).symm
  have hfrequency := runs_init_frequency hv hp hf h0 fun u hu => initLastStep_of_ne (hu.symm ▸ hne)
  have hfield := hfrequency.trans (runsSetMode_init.runs_modeField (s := s.reached _ _ _ _) hv rfl
    (State.dataAt_reached_of hold rfl) (State.okAt_reached_of hok rfl))
  have hready := hfield.trans (runsSetMode_init.runs_ready (s := s.reached _ _ _ _) hv rfl
    (State.dataAt_reached_of hd rfl) hready)
  have hrun := hready.trans (runs_result rfl rfl)
  exact ⟨hfield.execFor_eq rfl rfl rfl hchip, hrun.execFor_eq rfl rfl rfl hchip⟩

end Sys2Proof.Machine
end

section
/-! A run and one more event of its command: a transaction whose continuation only moves on keeps the caches, and the
result ends the command. -/

namespace Sys2Proof.Machine

section OneMore
variable {i : Instr} {evs : List Event} {s : State} {mode : Mode} {pwr : BitVec 8} {p : Pos}

section Transaction
variable {a : Addr} (h : Runs i evs s mode pwr (.running p)) (hi : p.command = i) (hc : i.isCommand = true)
include h hi hc

theorem Runs.then_write {bytes : List Byte} {k : State → State} {q : Pos}
    (ha : actionAt p (s.reached evs mode pwr (.running p)) = .write a bytes k)
    (hl : legalBurst s.cfg a bytes.length = true) (ho : s.okAt (evs.countP takesAnswer) = true)
    (hk : ∀ u, u.mode = mode → u.pwr = pwr → k u = u.goto q) :
    Runs i (evs ++ [.busW a bytes true]) s mode pwr (.running q) :=
  h.trans (runs_write rfl hi hc ha hl (State.okAt_reached_of ho rfl) (hk _ rfl rfl))

theorem Runs.then_read {n : Nat} {bytes : List Byte} {k : List Byte → State → State} {q : Pos}
    (ha : actionAt p (s.reached evs mode pwr (.running p)) = .read a n k) (hl : legalBurst s.cfg a n = true)
    (hd : s.dataAt (evs.countP takesAnswer) n = some bytes) (hk : ∀ u, u.cfg = s.cfg → k bytes u = u.goto q) :
    Runs i (evs ++ [.busR a n (some bytes)]) s mode pwr (.running q) :=
  h.trans (runs_read rfl hi hc ha hl (State.dataAt_reached_of hd rfl) (hk _ rfl))

theorem Runs.then_failed_read {n : Nat} {k : List Byte → State → State}
    (ha : actionAt p (s.reached evs mode pwr (.running p)) = .read a n k) (hl : legalBurst s.cfg a n = true)
    (hd : s.dataAt (evs.countP takesAnswer) n = none) :
    Runs i (evs ++ [.busR a n none]) s mode pwr (.running (.finish i (.err .spiReadError))) :=
  h.trans (runs_failed_read rfl hi hc ha hl (State.dataAt_reached_of hd rfl))

end Transaction

theorem Runs.then_result {r : Result} (h : Runs i evs s mode pwr (.running (.finish i r)))
    (hc : i.isCommand = true) : Runs i (evs ++ [.res r]) s mode pwr .idle :=
  h.trans (runs_result rfl hc)

end OneMore

end Sys2Proof.Machine
end

section
/-! `send` (R191): the frame in one FIFO burst, the transition into Transmit where another mode is cached, the wait for
packet-sent, the transition to Standby. -/

namespace Sys2Proof.Machine

/-- Settles O43: the size check is made in the step of acceptance, which goes straight to the result. -/
theorem oversizeSendPerformsNoTransportWrites : Obligations.OversizeSendPerformsNoTransportWrites := by
  intro s payload hs hlen
  exact run_accepted_to_result hs rfl (exec_send_of_idle hs payload) (if_pos hlen)

/-- Where the frame leaves the sequencer: at packet-sent where Transmit is cached (C13), else at the first label of the
transition. -/
def afterFrame (payload : List Byte) (mode : Mode) (pwr : BitVec 8) : Pos :=
  if mode = .transmit then .send payload (.sent .poll) else .send payload (.toTransmit (firstLabel .transmit pwr))

theorem enterSetMode_of_frame (payload : List Byte) (u : State) :
    enterSetMode .transmit (fun p => .send payload (.toTransmit p)) (State.goto (.send payload (.sent .poll))) u =
      u.goto (afterFrame payload u.mode u.pwr) := by
  unfold afterFrame
  split
  · next h => exact enterSetMode_of_cached h
  · next h => exact enterSetMode_of_ne (Ne.symm h) _ _

theorem sendLastStep_of_transmit {payload : List Byte} {u : State} (h : u.mode = .transmit) :
    sendLastStep payload u = u.goto (.send payload (.toStandby .readMode)) :=
  enterSetMode_of_no_boost (by simp [h]) (by simp)

section Send
variable {s : State} {payload : List Byte} (hv : s.cfg.valid = true)
include hv

/-- Acceptance and the frame. -/
theorem runs_send_frame (hs : s.pc = .idle) (hlen : payload.length ≤ 60) (h0 : s.okAt 0 = true) :
    Runs (.send payload) [.cmd (.send payload), .busW s.cfg.aFifo (frame payload) true] s s.mode s.pwr
      (.running (afterFrame payload s.mode s.pwr)) := by
  obtain ⟨-, -, -, -, -, hfifo⟩ := legal_bursts hv
  have haccept : Runs (.send payload) [.cmd (.send payload)] s s.mode s.pwr (.running (.send payload .fifo)) :=
    runs_accept (exec_send_of_idle hs payload) (if_neg (Nat.not_lt.mpr hlen))
  exact haccept.then_write rfl rfl rfl (hfifo _) h0 fun u hmode hpwr => hmode ▸ hpwr ▸ enterSetMode_of_frame payload u

/-- From packet-sent to the result, each wait over at its first poll: the transition to Standby makes no test-PA
write (R274). -/
theorem runs_send_from_sent (hp : s.pc = .running (.send payload (.sent .poll))) (hmode : s.mode = .transmit)
    {sent old ready : Byte} (hsent : s.dataAt 0 1 = some [sent]) (hold : s.dataAt 1 1 = some [old])
    (hok : s.okAt 2 = true) (hready : s.dataAt 3 1 = some [ready]) (hover : sent &&& s.cfg.mPacketSent ≠ 0#8)
    (hset : ready &&& s.cfg.mModeReady ≠ 0#8) :
    Runs (.send payload) [.busR s.cfg.aIrq2 1 (some [sent]), .busR s.cfg.aOpMode 1 (some [old]),
      .busW s.cfg.aOpMode [modeByte old (modeCode s.cfg .standby)] true, .busR s.cfg.aIrq1 1 (some [ready]),
      .res (.ok .unit)] s .standby s.pwr .idle := by
  have hm := runsSetMode_send_standby payload
  have hpoll : Runs (.send payload) [.busR s.cfg.aIrq2 1 (some [sent])] s s.mode s.pwr
      (.running (.send payload (.toStandby .readMode))) :=
    (runsWait_sent hv payload).runs_over rfl hp hsent (waitOver_set_iff.mpr hover) (sendLastStep_of_transmit hmode)
  have hfield := hpoll.trans (hm.runs_modeField (s := s.reached _ _ _ _) hv rfl (State.dataAt_reached_of hold rfl)
    (State.okAt_reached_of hok rfl))
  have hstandby := hfield.trans (hm.runs_ready (s := s.reached _ _ _ _) hv rfl (State.dataAt_reached_of hready rfl)
    hset)
  exact hstandby.then_result rfl

end Send

/-- Settles O44: the frame, the transition into Transmit, and the end of `send` from packet-sent on. -/
theorem sendWritesTheFrameAndReturnsToStandby : Obligations.SendWritesTheFrameAndReturnsToStandby := by
  intro s payload old1 ready1 sent old2 ready2 hv hs hlen hmode w n new1 new2 h0 hpa hold1 hok1 hready1 hsent hold2
    hok2 hready2 hset1 hover hset2
  have hframe := runs_send_frame hv hs hlen h0
  rw [afterFrame, if_neg hmode] at hframe
  have htransmit := hframe.trans ((runsSetMode_send_transmit payload).runs_transition (s := s.reached _ _ _ _)
    (unready := []) hv rfl (fun k hk => State.okAt_reached_of (hpa k hk) rfl)
    (State.dataAt_reached_of hold1 (Nat.add_comm 1 n))
    (State.okAt_reached_of hok1 (by simp [List.countP_cons, takesAnswer, n, w]; omega)) nofun
    (State.dataAt_reached_of hready1 (by simp [List.countP_cons, takesAnswer, n, w]; omega)) hset1)
  have hrun := htransmit.trans (runs_send_from_sent (s := s.reached _ _ _ _) hv rfl rfl
    (State.dataAt_reached_of hsent (by simp [List.countP_cons, takesAnswer, n, w]))
    (State.dataAt_reached_of hold2 (by simp [List.countP_cons, takesAnswer, n, w]))
    (State.okAt_reached_of hok2 (by simp [List.countP_cons, takesAnswer, n, w]))
    (State.dataAt_reached_of hready2 (by simp [List.countP_cons, takesAnswer, n, w])) hover hset2)
  refine Runs.execFor_eq_of_idle ?run hs ?steps ?used ?line ?record
  case run =>
    simp only [List.append_assoc, List.cons_append, List.nil_append] at hrun ⊢
    exact hrun
  case steps => simp [n, w]
  case used => simp [List.countP_cons, takesAnswer, n, w]
  case line => simp [lineAfter]
  case record => simp [recordWrites_chip, writeEvents, recordAfter, new1, new2]

/-- Settles O45: with Transmit cached the frame is followed by packet-sent. -/
theorem sendFromTransmitSkipsTheFirstTransition : Obligations.SendFromTransmitSkipsTheFirstTransition := by
  intro s payload sent old ready hv hs hlen hmode new h0 hsent hold hok hready hover hset
  have hframe := runs_send_frame hv hs hlen h0
  rw [afterFrame, if_pos hmode] at hframe
  have hrun := hframe.trans (runs_send_from_sent (s := s.reached _ _ _ _) hv rfl hmode
    (State.dataAt_reached_of hsent rfl) (State.dataAt_reached_of hold rfl) (State.okAt_reached_of hok rfl)
    (State.dataAt_reached_of hready rfl) hover hset)
  refine hrun.execFor_eq_of_idle hs rfl rfl rfl ?record
  case record => simp [recordAfter, State.recordWrite_chip, new]

end Sys2Proof.Machine
end

section
/-! The frame (R190): one length byte, the header, the payload. -/

namespace Sys2Proof.Machine

/-- A payload that `send` accepts fits the length byte (R94). -/
theorem frameLength_toNat {payload : List Byte} (h : payload.length ≤ 60) :
    (BitVec.ofNat 8 (payload.length + 4)).toNat = payload.length + 4 :=
  (BitVec.toNat_ofNat _ _).trans (Nat.mod_eq_of_lt (by omega))

theorem drop_frame (payload : List Byte) : (frame payload).drop 5 = payload := rfl

/-- Settles O30: the length byte announces the payload, which is what follows the header. -/
theorem frameIsLengthHeaderPayload : Obligations.FrameIsLengthHeaderPayload := by
  intro payload h
  have hlen := frameLength_toNat h
  refine ⟨_, rfl, hlen, Nat.add_comm _ 5, ?_⟩
  rw [drop_frame, hlen, Nat.add_sub_cancel, List.take_length]

end Sys2Proof.Machine
end

section
/-! The commands that are one read of one byte: `is_message_available` (R192) and `rssi` (R195). -/

namespace Sys2Proof.Machine

section OneRead
variable {i : Instr} {s : State} {p : Pos} {a : Cfg → Addr} {next : List Byte → State → State} (hs : s.pc = .idle)
  (haccept : Runs i [.cmd i] s s.mode s.pwr (.running p)) (hc : i.isCommand = true) (hp : p.command = i)
  (ha : ∀ u, actionAt p u = .read (a u.cfg) 1 next) (hl : legalBurst s.cfg (a s.cfg) 1 = true)
include hs haccept hc hp ha hl

/-- The byte read decides the value returned. -/
theorem execFor_one_read {b : Byte} {v : Value} (hd : s.dataAt 0 1 = some [b])
    (hnext : ∀ u, u.cfg = s.cfg → next [b] u = u.finishOk i v) :
    execFor i 3 s = .next { s.answered 1 with
      trace := s.trace ++ [.cmd i, .busR (a s.cfg) 1 (some [b]), .res (.ok v)] } := by
  have hread := haccept.then_read hp hc (ha _) hl hd hnext
  exact (hread.then_result hc).execFor_eq_of_idle hs rfl rfl rfl rfl

theorem execFor_one_failed_read (hd : s.dataAt 0 1 = none) :
    execFor i 3 s = .next { s.answered 1 with
      trace := s.trace ++ [.cmd i, .busR (a s.cfg) 1 none, .res (.err .spiReadError)] } := by
  have hread := haccept.then_failed_read hp hc (ha _) hl hd
  exact (hread.then_result hc).execFor_eq_of_idle hs rfl rfl rfl rfl

end OneRead

theorem statusBit_eq_decide (b mask : Byte) : statusBit b mask = decide (b &&& mask ≠ 0#8) := by
  exact Bool.eq_iff_iff.mpr (by simp [statusBit])

/-- Settles O46: outside Receive acceptance goes straight to the error; in Receive one read follows. -/
theorem isMessageAvailableReadsOneBitInReceiveOnly : Obligations.IsMessageAvailableReadsOneBitInReceiveOnly := by
  intro s hv hs
  refine ⟨fun hmode => ?invalid, fun hmode => ?available⟩
  case invalid => exact run_accepted_to_result hs rfl (exec_isMessageAvailable_of_idle hs) (if_neg hmode)
  case available =>
    have haccept : Runs .isMessageAvailable [.cmd .isMessageAvailable] s s.mode s.pwr (.running .isMessageAvailable) :=
      runs_accept (exec_isMessageAvailable_of_idle hs) (if_pos hmode)
    have hlegal : legalBurst s.cfg s.cfg.aIrq2 1 = true := legal_single hv (by simp [Cfg.singleAddresses])
    refine ⟨fun b hd => ?_, execFor_one_failed_read (a := Cfg.aIrq2) hs haccept rfl rfl (fun _ => rfl) hlegal⟩
    refine execFor_one_read (a := Cfg.aIrq2) hs haccept rfl rfl (fun _ => rfl) hlegal hd fun u hu => ?_
    rw [← statusBit_eq_decide, ← hu]
    rfl

/-- Settles O51: one read, whose byte is the value. -/
theorem rssiReturnsTheRawHalfDecibels : Obligations.RssiReturnsTheRawHalfDecibels := by
  intro s hv hs
  have haccept : Runs .rssi [.cmd .rssi] s s.mode s.pwr (.running .rssi) := runs_accept (exec_rssi_of_idle hs) rfl
  have hlegal : legalBurst s.cfg s.cfg.aRssi 1 = true := legal_single hv (by simp [Cfg.singleAddresses])
  exact ⟨fun raw hd => execFor_one_read (a := Cfg.aRssi) hs haccept rfl rfl (fun _ => rfl) hlegal hd fun _ _ => rfl,
    execFor_one_failed_read (a := Cfg.aRssi) hs haccept rfl rfl (fun _ => rfl) hlegal⟩

end Sys2Proof.Machine
end

section
/-! `receive` (R193): the length byte and its checks, the header, the payload. -/

namespace Sys2Proof.Machine

section Receive
variable {s : State} {capacity : Nat} {len : Byte} (hv : s.cfg.valid = true) (hs : s.pc = .idle)
  (hlen : s.dataAt 0 1 = some [len])
include hv hs hlen

/-- Acceptance and the read of the length byte, whose checks decide the position. -/
theorem runs_receive_length {q : Pos} (hq : ∀ u, receiveLength capacity len u = u.goto q) :
    Runs (.receive capacity) [.cmd (.receive capacity), .busR s.cfg.aFifo 1 (some [len])] s s.mode s.pwr
      (.running q) := by
  obtain ⟨-, -, -, -, -, hfifo⟩ := legal_bursts hv
  have haccept : Runs (.receive capacity) [.cmd (.receive capacity)] s s.mode s.pwr
      (.running (.receive capacity .length)) := runs_accept (exec_receive_of_idle hs capacity) rfl
  exact haccept.then_read rfl rfl rfl (hfifo 1) hlen fun u _ => hq u

/-- A usable length byte is followed by the read of the header, whatever that gives. -/
theorem runs_receive_header (h4 : 4 ≤ len.toNat) (hcap : len.toNat ≤ capacity) {header : List Byte}
    (hheader : s.dataAt 1 4 = some header) {q : Pos}
    (hq : ∀ u, u.cfg = s.cfg → receivePayload capacity len u = u.goto q) :
    Runs (.receive capacity) [.cmd (.receive capacity), .busR s.cfg.aFifo 1 (some [len]),
      .busR s.cfg.aFifo 4 (some header)] s s.mode s.pwr (.running q) := by
  obtain ⟨-, -, -, -, -, hfifo⟩ := legal_bursts hv
  exact (runs_receive_length hv hs hlen fun u => receiveLength_usable u hcap h4).then_read rfl rfl rfl (hfifo 4) hheader
    hq

end Receive

/-- Settles O47: the header is followed by the read of the payload, or by the result where an empty one is not
read. -/
theorem receiveReturnsThePayloadBytes : Obligations.ReceiveReturnsThePayloadBytes := by
  intro s capacity len header hv hs hlen h4 hcap hheader
  obtain ⟨-, -, -, -, -, hfifo⟩ := legal_bursts hv
  refine ⟨fun data hread hdata => ?read, fun hempty hskip => ?skipped⟩
  case read =>
    have hheader := runs_receive_header hv hs hlen h4 hcap hheader fun u hu => receivePayload_read u (hu ▸ hread)
    have hpayload := hheader.then_read rfl rfl rfl (hfifo _) hdata fun _ _ => rfl
    exact (hpayload.then_result rfl).execFor_eq_of_idle hs rfl rfl rfl rfl
  case skipped =>
    have hheader := runs_receive_header hv hs hlen h4 hcap hheader fun u hu => receivePayload_none u hempty (hu ▸ hskip)
    exact (hheader.then_result rfl).execFor_eq_of_idle hs rfl rfl rfl rfl

/-- At the label behind a length byte below 4 `receive` faults (93 U2). -/
theorem execFor_receive_underflow {s : State} {capacity : Nat} (hp : s.pc = .running (.receive capacity .underflow)) :
    execFor (.receive capacity) 1 s = .fault .lengthUnderflow := by
  have hfault : exec (.receive capacity) s = .fault .lengthUnderflow := exec_command hp rfl
  rw [execFor, hfault]

/-- Settles O48: the checks on the length byte lead to the error, or to the label of the fault. -/
theorem receiveRejectsAnUnusableLengthByte : Obligations.ReceiveRejectsAnUnusableLengthByte := by
  intro s capacity len hv hs hlen
  refine ⟨fun hlarge => ?large, fun hcap hsmall => ?small⟩
  case large =>
    have hlength := runs_receive_length hv hs hlen fun u => receiveLength_large u hlarge
    exact (hlength.then_result rfl).execFor_eq_of_idle hs rfl rfl rfl rfl
  case small =>
    have hlength := runs_receive_length hv hs hlen fun u => receiveLength_small u hcap hsmall
    exact (execFor_add (n := 1) hlength).trans (execFor_receive_underflow rfl)

/-- Settles O49: the length byte of the frame announces the payload, which is what the third read gives. -/
theorem receiveReconstructsASentPayload : Obligations.ReceiveReconstructsASentPayload := by
  intro s payload capacity hv hs h60 hcap hburst hlen hheader hdata
  have hcount := frameLength_toNat h60
  obtain ⟨hrun, -⟩ := receiveReturnsThePayloadBytes s capacity (BitVec.ofNat 8 (payload.length + 4)) _ hv hs hlen
    (by omega) (by omega) hheader
  rw [drop_frame] at hdata
  exact ⟨_, hrun payload (.inr hburst) (by rwa [hcount, Nat.add_sub_cancel]), hs, rfl, by simp⟩

end Sys2Proof.Machine
end

section
/-! `read_temperature` (R194): the start bit, the wait until the running bit is clear, the raw byte. -/

namespace Sys2Proof.Machine

theorem waitOver_clear {mask b : Byte} (h : b &&& mask = 0#8) : waitOver mask false b = true := by
  simp [waitOver, statusBit, h]

/-- Acceptance and the start bit, written as a whole byte (D25). -/
theorem runs_temperature_start {s : State} (hv : s.cfg.valid = true) (hs : s.pc = .idle) (h0 : s.okAt 0 = true) :
    Runs .readTemperature [.cmd .readTemperature, .busW s.cfg.aTemp1 [s.cfg.mTempStart] true] s s.mode s.pwr
      (.running (.readTemperature (.running .poll))) := by
  have hlegal : legalBurst s.cfg s.cfg.aTemp1 1 = true := legal_single hv (by simp [Cfg.singleAddresses])
  have haccept : Runs .readTemperature [.cmd .readTemperature] s s.mode s.pwr
      (.running (.readTemperature .start)) := runs_accept (exec_readTemperature_of_idle hs) rfl
  exact haccept.then_write rfl rfl rfl hlegal h0 fun _ _ _ => rfl

/-- Settles O50: the write of the start bit, the wait with its polls that show it running, and the read. -/
theorem readTemperatureWaitsAndSubtractsFrom166 : Obligations.ReadTemperatureWaitsAndSubtractsFrom166 := by
  intro s running clear raw hv hs h0 hrunning hclear hover hraw
  have hwait := runsWait_temperature hv
  have hlegal : legalBurst s.cfg s.cfg.aTemp2 1 = true := legal_single hv (by simp [Cfg.singleAddresses])
  have hbusy : ∀ b ∈ running, waitOver s.cfg.mTempRunning false b = false := fun b hb => by
    obtain ⟨k, hk, rfl⟩ := List.mem_iff_getElem.mp hb
    exact waitOver_clear_eq_false (hrunning k hk).2
  have hpolls := (runs_temperature_start hv hs h0).trans (hwait.runs_unready (s := s.reached _ _ _ _) rfl rfl
    (fun k hk => State.dataAt_reached_of (hrunning k hk).1 rfl) hbusy)
  have hlast := hpolls.trans (hwait.runs_over (s := s.reached _ _ _ _) rfl rfl
    (State.dataAt_reached_of hclear (by simp [List.countP_cons, takesAnswer]; omega)) (waitOver_clear hover) rfl)
  have hread := hlast.then_read (q := .finish _ (.ok (.celsius (celsiusOf raw)))) rfl rfl rfl hlegal
    (by simpa [List.countP_cons, takesAnswer, Nat.add_comm 2] using hraw) fun _ _ => rfl
  have hrun := hread.then_result rfl
  refine Runs.execFor_eq_of_idle ?run hs ?steps ?used ?line ?record
  case run =>
    simp only [List.append_assoc, List.cons_append, List.nil_append] at hrun ⊢
    exact hrun
  case steps => simp
  case used => simp [List.countP_cons, takesAnswer]
  case line => simp [lineAfter]
  case record => simp [recordAfter, State.recordWrite_chip]

end Sys2Proof.Machine
end

section
/-! `read_all_registers` (R196): the core bank in one burst, then each of the four registers beyond it. -/

namespace Sys2Proof.Machine

/-- The addresses of the pairs as numbers (R196, D20). -/
theorem dumpAddresses_toNat : dumpAddresses.map BitVec.toNat = List.range 80 ++ [0x58, 0x5A, 0x5C, 0x6F] := by decide

theorem dumpPairs_snd {core : List Byte} (h : core.length = 80) (a b c d : Byte) :
    (dumpPairs core a b c d).map Prod.snd = core ++ [a, b, c, d] :=
  List.map_snd_zip (by simp [dumpAddresses, h])

theorem legal_dump (c : Cfg) : legalBurst c 0x00 80 = true ∧ legalBurst c 0x58 1 = true ∧
    legalBurst c 0x5A 1 = true ∧ legalBurst c 0x5C 1 = true ∧ legalBurst c 0x6F 1 = true :=
  ⟨legalBurst_core (by decide) (by decide), legalBurst_one (by decide), legalBurst_one (by decide),
    legalBurst_one (by decide), legalBurst_one (by decide)⟩

/-- Acceptance, the core bank and the first auxiliary register. -/
theorem runs_dump_to_aux5A {s : State} (hs : s.pc = .idle) {core : List Byte} {a : Byte}
    (hcore : s.dataAt 0 80 = some core) (ha : s.dataAt 1 1 = some [a]) :
    Runs .readAllRegisters [.cmd .readAllRegisters, .busR 0x00 80 (some core), .busR 0x58 1 (some [a])] s s.mode s.pwr
      (.running (.readAllRegisters (.aux5A core a))) := by
  obtain ⟨hl00, hl58, -⟩ := legal_dump s.cfg
  have haccept : Runs .readAllRegisters [.cmd .readAllRegisters] s s.mode s.pwr (.running (.readAllRegisters .core)) :=
    runs_accept (exec_readAllRegisters_of_idle hs) rfl
  have hbank := haccept.then_read (q := .readAllRegisters (.aux58 core)) rfl rfl rfl hl00 hcore fun _ _ => rfl
  exact hbank.then_read rfl rfl rfl hl58 ha fun _ _ => rfl

/-- Settles O52: the three further reads and the pairs, or the read that fails and its error. -/
theorem readAllRegistersReturnsEightyFourPairs : Obligations.ReadAllRegistersReturnsEightyFourPairs := by
  intro s core a b c d hs hcore ha
  obtain ⟨-, -, hl5A, hl5C, hl6F⟩ := legal_dump s.cfg
  have hlength := State.dataAt_length hcore
  have hstart := runs_dump_to_aux5A hs hcore ha
  refine ⟨fun hb hc hd => ⟨dumpPairs core a b c d, ?addresses, dumpPairs_snd hlength a b c d, ?run⟩, fun hb => ?failed⟩
  case addresses => rw [← dumpAddresses_toNat, ← dumpPairs_fst hlength a b c d, List.map_map]; rfl
  case run =>
    have h5A := hstart.then_read (q := .readAllRegisters (.aux5C core a b)) rfl rfl rfl hl5A hb fun _ _ => rfl
    have h5C := h5A.then_read (q := .readAllRegisters (.aux6F core a b c)) rfl rfl rfl hl5C hc fun _ _ => rfl
    have h6F := h5C.then_read rfl rfl rfl hl6F hd fun _ _ => rfl
    exact (h6F.then_result rfl).execFor_eq_of_idle hs rfl rfl rfl rfl
  case failed =>
    have hread := hstart.then_failed_read rfl rfl rfl hl5A hb
    exact (hread.then_result rfl).execFor_eq_of_idle hs rfl rfl rfl rfl

end Sys2Proof.Machine
end

section
/-! Refusal, failure and return inside a command, and block reset: another command is refused (R235), a `fail` answer
raises the error of its event (R221, R224), a result ends the command (R226); what block reset leaves (R260). -/

namespace Sys2Proof.Machine

/-- Settles O10: the position is that of another command, which `exec` refuses. -/
theorem busyBlockRefusesAnotherCommand : Obligations.BusyBlockRefusesAnotherCommand :=
  fun _ _ _ hp hi hne => exec_other_command hp hi hne.symm

/-! ### A failed answer -/

/-- Only the return of a command can stand under an instruction that is no command. -/
theorem isCommand_of_actionAt_ne_result {s : State} {p : Pos} (h : ∀ r, actionAt p s ≠ .result r) :
    p.command.isCommand = true := by
  cases p with
  | finish c r => exact absurd rfl (h r)
  | _ => rfl

/-- The step at a position whose action is no result performs that action. -/
theorem step_eq_perform {s : State} {p : Pos} {a : Action} (hp : s.pc = .running p) (ha : actionAt p s = a)
    (hr : ∀ r, a ≠ .result r) : step s = perform p.command a s := by
  subst ha
  exact (step_running hp).trans (exec_instrAt hp (isCommand_of_actionAt_ne_result hr))

section Failed
variable {s : State} (ho : s.okAt 0 = false) (c : Instr)
include ho

/-- `ResetLine(high)` answered `fail` raises `ResetError`. -/
theorem lineHigh_fail (k : State → State) : lineHigh c k s = .next (s.afterHigh.raise c .resetError) := by
  simp [lineHigh, ho]

/-- `ResetLine(low)` answered `fail` raises `ResetError`. -/
theorem lineLow_fail (k : State → State) : lineLow c k s = .next (s.afterLow.raise c .resetError) := by
  simp [lineLow, ho]

theorem raise_afterWrite_of_fail (a : Addr) (bytes : List Byte) (e : ErrKind) :
    (s.afterWrite a bytes).raise c e = { s.answered 1 with
      pc := .running (.finish c (.err e)),
      trace := s.trace ++ [.busW a bytes false],
      chip := (s.recordWrite a bytes false).chip } := by
  apply State.eq_of_fields <;> simp [ho]

theorem raise_afterRead_of_fail (a : Addr) (n : Nat) (e : ErrKind) :
    (s.afterRead a n).raise c e = { s.answered 1 with
      pc := .running (.finish c (.err e)),
      trace := s.trace ++ [.busR a n none] } := by
  rw [afterRead_eq_reached (State.dataAt_of_fail n ho)]; rfl

theorem raise_afterHigh_of_fail (e : ErrKind) :
    s.afterHigh.raise c e = { s.answered 1 with
      pc := .running (.finish c (.err e)),
      trace := s.trace ++ [.rstHigh false],
      chip := [] } := by
  rw [afterHigh_eq_reached ho]; rfl

theorem raise_afterLow_of_fail (e : ErrKind) :
    s.afterLow.raise c e = { s.answered 1 with
      pc := .running (.finish c (.err e)),
      trace := s.trace ++ [.rstLow false] } := by
  rw [afterLow_eq_reached ho]; rfl

end Failed

/-- Settles O24: the step performs the event, a failed one raises its error, and raising writes the position alone. -/
theorem failedAnswerRaisesItsErrorAtOnce : Obligations.FailedAnswerRaisesItsErrorAtOnce := by
  intro s p hp ho
  refine ⟨fun a bytes k ha hl => ?write, fun a n k ha hl => ?read, fun k ha => ?high, fun k ha => ?low⟩
  case write =>
    rw [step_eq_perform hp ha nofun, ← raise_afterWrite_of_fail ho]
    exact memWrite_fail hl ho
  case read =>
    rw [step_eq_perform hp ha nofun, ← raise_afterRead_of_fail ho]
    exact memRead_fail hl (State.dataAt_of_fail n ho)
  case high =>
    rw [step_eq_perform hp ha nofun, ← raise_afterHigh_of_fail ho]
    exact lineHigh_fail ho _ k
  case low =>
    rw [step_eq_perform hp ha nofun, ← raise_afterLow_of_fail ho]
    exact lineLow_fail ho _ k

/-! ### A result, and block reset -/

/-- Settles O25: the action at a result is `respond`, and the step there executes the command itself. -/
theorem resultIsEmittedAndTheBlockIsIdle : Obligations.ResultIsEmittedAndTheBlockIsIdle := by
  intro s c r hp hc
  have hexec : exec c s = .next { s with pc := .idle, trace := s.trace ++ [.res r] } := exec_command hp hc
  exact ⟨hexec, (step_running hp).trans hexec⟩

/-- Settles O20: each field is the one `State.blockReset` writes. -/
theorem blockResetLeavesStandbyThirteenAndIdle : Obligations.BlockResetLeavesStandbyThirteenAndIdle :=
  fun _ => ⟨rfl, rfl, rfl, rfl, rfl, rfl⟩

end Sys2Proof.Machine
end
